-- ==== Sys2Proof/Word.lean ====
section
/-! DEFINITION. The two data widths of the machine (00_scope.md R5). -/

namespace Sys2Proof

/-- An 8-bit datum: "used only in memory and I/O" (10_state.md R32). -/
abbrev Byte := BitVec 8

/-- A 16-bit datum or address: every register and every operand (00_scope.md R8). -/
abbrev Word := BitVec 16

end Sys2Proof
end

