-- ==== Sys2Proof/Syntax.lean ====
section
/-! DEFINITION. The instruction set as syntax: register names (10_state.md R22), operand forms (30_encoding.md R93),
jump conditions (30_encoding.md R101) and one constructor of `Instr` for each row of spec/opcode_table.json. -/

namespace Sys2Proof

/-- The thirteen general registers G0 to G11 and G12, which is FP (10_state.md R20, R23). -/
inductive Gr where
  | g0 | g1 | g2 | g3 | g4 | g5 | g6 | g7 | g8 | g9 | g10 | g11 | fp
  deriving DecidableEq, Repr

/-- What a register field names (10_state.md R22): a general register, SP (SSP or USP by FLAG.P), USP, or FLAG. -/
inductive Reg where
  | gen (r : Gr)
  | sp
  | usp
  | flag
  deriving DecidableEq, Repr

/-- The operand forms that have an address (30_encoding.md R97, `Addr`): modes 0, 1, 3, 6, 7. -/
inductive MemEa where
  /-- mode 0, Direct: address Dsp -/
  | drct (dsp : Word)
  /-- mode 1, Indexed: address Dsp plus the content of Rx -/
  | index (dsp : Word) (rx : Reg)
  /-- mode 3, FP Relative: the byte displacement Dsp4 (even, -16 to +14) plus FP -/
  | fpRlt (dsp4 : Int)
  /-- mode 6, Register Indirect: the content of Rx, a word there -/
  | indr (rx : Reg)
  /-- mode 7, Byte Register Indirect: the content of Rx, a byte there -/
  | bIndr (rx : Reg)
  deriving DecidableEq, Repr

/-- The eight operand forms (30_encoding.md R93). -/
inductive Ea where
  | mem (m : MemEa)
  /-- mode 2, Immediate: Imm itself -/
  | imm (imm : Word)
  /-- mode 4, Register: the content of Rs -/
  | reg (rs : Reg)
  /-- mode 5, 4bit Signed Immediate: a number from -8 to +7 -/
  | imm4 (imm4 : Int)
  deriving DecidableEq, Repr

/-- The fifteen jump conditions (30_encoding.md R101), named as the jumps are. -/
inductive Cond where
  | z | c | m | o | gt | ge | le | lt | nz | nc | nm | no | hi | ls | always
  deriving DecidableEq, Repr

/-- The instructions that take an operand in all eight modes (30_encoding.md R100). -/
inductive EaOp where
  | ld | add | sub | cmp | and | or | xor | adds | mul | div | mod | shla | shll | shra | shrl
  deriving DecidableEq, Repr

/-- The instructions: one constructor for each row of spec/opcode_table.json. The suffix is the row's addressing mode by
its short name (Drct 0, Index 1, Imm 2, FpRlt 3, Reg 4, Imm4 5, Indr 6, BIndr 7). -/
inductive Instr where
  | no
  | ldDrct (rd : Reg) (dsp : Word)
  | ldIndex (rd rx : Reg) (dsp : Word)
  | ldImm (rd : Reg) (imm : Word)
  | ldFpRlt (rd : Reg) (dsp4 : Int)
  | ldReg (rd rs : Reg)
  | ldImm4 (rd : Reg) (imm4 : Int)
  | ldIndr (rd rx : Reg)
  | ldBIndr (rd rx : Reg)
  | stDrct (rd : Reg) (dsp : Word)
  | stIndex (rd rx : Reg) (dsp : Word)
  | stFpRlt (rd : Reg) (dsp4 : Int)
  | stIndr (rd rx : Reg)
  | stBIndr (rd rx : Reg)
  | addDrct (rd : Reg) (dsp : Word)
  | addIndex (rd rx : Reg) (dsp : Word)
  | addImm (rd : Reg) (imm : Word)
  | addFpRlt (rd : Reg) (dsp4 : Int)
  | addReg (rd rs : Reg)
  | addImm4 (rd : Reg) (imm4 : Int)
  | addIndr (rd rx : Reg)
  | addBIndr (rd rx : Reg)
  | subDrct (rd : Reg) (dsp : Word)
  | subIndex (rd rx : Reg) (dsp : Word)
  | subImm (rd : Reg) (imm : Word)
  | subFpRlt (rd : Reg) (dsp4 : Int)
  | subReg (rd rs : Reg)
  | subImm4 (rd : Reg) (imm4 : Int)
  | subIndr (rd rx : Reg)
  | subBIndr (rd rx : Reg)
  | cmpDrct (rd : Reg) (dsp : Word)
  | cmpIndex (rd rx : Reg) (dsp : Word)
  | cmpImm (rd : Reg) (imm : Word)
  | cmpFpRlt (rd : Reg) (dsp4 : Int)
  | cmpReg (rd rs : Reg)
  | cmpImm4 (rd : Reg) (imm4 : Int)
  | cmpIndr (rd rx : Reg)
  | cmpBIndr (rd rx : Reg)
  | andDrct (rd : Reg) (dsp : Word)
  | andIndex (rd rx : Reg) (dsp : Word)
  | andImm (rd : Reg) (imm : Word)
  | andFpRlt (rd : Reg) (dsp4 : Int)
  | andReg (rd rs : Reg)
  | andImm4 (rd : Reg) (imm4 : Int)
  | andIndr (rd rx : Reg)
  | andBIndr (rd rx : Reg)
  | orDrct (rd : Reg) (dsp : Word)
  | orIndex (rd rx : Reg) (dsp : Word)
  | orImm (rd : Reg) (imm : Word)
  | orFpRlt (rd : Reg) (dsp4 : Int)
  | orReg (rd rs : Reg)
  | orImm4 (rd : Reg) (imm4 : Int)
  | orIndr (rd rx : Reg)
  | orBIndr (rd rx : Reg)
  | xorDrct (rd : Reg) (dsp : Word)
  | xorIndex (rd rx : Reg) (dsp : Word)
  | xorImm (rd : Reg) (imm : Word)
  | xorFpRlt (rd : Reg) (dsp4 : Int)
  | xorReg (rd rs : Reg)
  | xorImm4 (rd : Reg) (imm4 : Int)
  | xorIndr (rd rx : Reg)
  | xorBIndr (rd rx : Reg)
  | addsDrct (rd : Reg) (dsp : Word)
  | addsIndex (rd rx : Reg) (dsp : Word)
  | addsImm (rd : Reg) (imm : Word)
  | addsFpRlt (rd : Reg) (dsp4 : Int)
  | addsReg (rd rs : Reg)
  | addsImm4 (rd : Reg) (imm4 : Int)
  | addsIndr (rd rx : Reg)
  | addsBIndr (rd rx : Reg)
  | mulDrct (rd : Reg) (dsp : Word)
  | mulIndex (rd rx : Reg) (dsp : Word)
  | mulImm (rd : Reg) (imm : Word)
  | mulFpRlt (rd : Reg) (dsp4 : Int)
  | mulReg (rd rs : Reg)
  | mulImm4 (rd : Reg) (imm4 : Int)
  | mulIndr (rd rx : Reg)
  | mulBIndr (rd rx : Reg)
  | divDrct (rd : Reg) (dsp : Word)
  | divIndex (rd rx : Reg) (dsp : Word)
  | divImm (rd : Reg) (imm : Word)
  | divFpRlt (rd : Reg) (dsp4 : Int)
  | divReg (rd rs : Reg)
  | divImm4 (rd : Reg) (imm4 : Int)
  | divIndr (rd rx : Reg)
  | divBIndr (rd rx : Reg)
  | modDrct (rd : Reg) (dsp : Word)
  | modIndex (rd rx : Reg) (dsp : Word)
  | modImm (rd : Reg) (imm : Word)
  | modFpRlt (rd : Reg) (dsp4 : Int)
  | modReg (rd rs : Reg)
  | modImm4 (rd : Reg) (imm4 : Int)
  | modIndr (rd rx : Reg)
  | modBIndr (rd rx : Reg)
  | shlaDrct (rd : Reg) (dsp : Word)
  | shlaIndex (rd rx : Reg) (dsp : Word)
  | shlaImm (rd : Reg) (imm : Word)
  | shlaFpRlt (rd : Reg) (dsp4 : Int)
  | shlaReg (rd rs : Reg)
  | shlaImm4 (rd : Reg) (imm4 : Int)
  | shlaIndr (rd rx : Reg)
  | shlaBIndr (rd rx : Reg)
  | shllDrct (rd : Reg) (dsp : Word)
  | shllIndex (rd rx : Reg) (dsp : Word)
  | shllImm (rd : Reg) (imm : Word)
  | shllFpRlt (rd : Reg) (dsp4 : Int)
  | shllReg (rd rs : Reg)
  | shllImm4 (rd : Reg) (imm4 : Int)
  | shllIndr (rd rx : Reg)
  | shllBIndr (rd rx : Reg)
  | shraDrct (rd : Reg) (dsp : Word)
  | shraIndex (rd rx : Reg) (dsp : Word)
  | shraImm (rd : Reg) (imm : Word)
  | shraFpRlt (rd : Reg) (dsp4 : Int)
  | shraReg (rd rs : Reg)
  | shraImm4 (rd : Reg) (imm4 : Int)
  | shraIndr (rd rx : Reg)
  | shraBIndr (rd rx : Reg)
  | shrlDrct (rd : Reg) (dsp : Word)
  | shrlIndex (rd rx : Reg) (dsp : Word)
  | shrlImm (rd : Reg) (imm : Word)
  | shrlFpRlt (rd : Reg) (dsp4 : Int)
  | shrlReg (rd rs : Reg)
  | shrlImm4 (rd : Reg) (imm4 : Int)
  | shrlIndr (rd rx : Reg)
  | shrlBIndr (rd rx : Reg)
  | jzDrct (dsp : Word)
  | jzIndex (rx : Reg) (dsp : Word)
  | jcDrct (dsp : Word)
  | jcIndex (rx : Reg) (dsp : Word)
  | jmDrct (dsp : Word)
  | jmIndex (rx : Reg) (dsp : Word)
  | joDrct (dsp : Word)
  | joIndex (rx : Reg) (dsp : Word)
  | jgtDrct (dsp : Word)
  | jgtIndex (rx : Reg) (dsp : Word)
  | jgeDrct (dsp : Word)
  | jgeIndex (rx : Reg) (dsp : Word)
  | jleDrct (dsp : Word)
  | jleIndex (rx : Reg) (dsp : Word)
  | jltDrct (dsp : Word)
  | jltIndex (rx : Reg) (dsp : Word)
  | jnzDrct (dsp : Word)
  | jnzIndex (rx : Reg) (dsp : Word)
  | jncDrct (dsp : Word)
  | jncIndex (rx : Reg) (dsp : Word)
  | jnmDrct (dsp : Word)
  | jnmIndex (rx : Reg) (dsp : Word)
  | jnoDrct (dsp : Word)
  | jnoIndex (rx : Reg) (dsp : Word)
  | jhiDrct (dsp : Word)
  | jhiIndex (rx : Reg) (dsp : Word)
  | jlsDrct (dsp : Word)
  | jlsIndex (rx : Reg) (dsp : Word)
  | jmpDrct (dsp : Word)
  | jmpIndex (rx : Reg) (dsp : Word)
  | callDrct (dsp : Word)
  | callIndex (rx : Reg) (dsp : Word)
  | inDrct (rd : Reg) (dsp : Word)
  | inIndr (rd rx : Reg)
  | inBIndr (rd rx : Reg)
  | outDrct (rd : Reg) (dsp : Word)
  | outIndr (rd rx : Reg)
  | outBIndr (rd rx : Reg)
  | push (rd : Reg)
  | pop (rd : Reg)
  | ret
  | reti
  | svc
  | halt
  deriving DecidableEq, Repr

end Sys2Proof
end

