-- ==== Sys2Proof/WellFormed.lean ====
section
/-! DEFINITION. Which instruction terms have an encoding: a short immediate is in the range of its 4-bit signed field
(30_encoding.md R95) and an FP-relative displacement is an even number from -16 to +14 (30_encoding.md R93, R96). Every
other field is as wide in the syntax as in the word. -/

namespace Sys2Proof

/-- Imm4 "ranges over -8 to +7" (30_encoding.md R95). -/
def imm4Fits (n : Int) : Bool := decide (-8 ≤ n ∧ n ≤ 7)

/-- "in FP-relative mode Dsp4 is an even number from -16 to +14" (30_encoding.md R93). -/
def dsp4Fits (n : Int) : Bool := decide (-16 ≤ n ∧ n ≤ 14 ∧ n % 2 = 0)

/-- The check on an operand with an address. -/
def MemEa.wellFormed : MemEa → Bool
  | .fpRlt d => dsp4Fits d
  | _ => true

/-- The check on an operand. -/
def Ea.wellFormed : Ea → Bool
  | .mem m => m.wellFormed
  | .imm4 n => imm4Fits n
  | _ => true

/-- The check on an instruction, one arm per constructor. -/
def Instr.wellFormed : Instr → Bool
  | .no => true
  | .ldDrct _ _ => true
  | .ldIndex _ _ _ => true
  | .ldImm _ _ => true
  | .ldFpRlt _ dsp4 => dsp4Fits dsp4
  | .ldReg _ _ => true
  | .ldImm4 _ imm4 => imm4Fits imm4
  | .ldIndr _ _ => true
  | .ldBIndr _ _ => true
  | .stDrct _ _ => true
  | .stIndex _ _ _ => true
  | .stFpRlt _ dsp4 => dsp4Fits dsp4
  | .stIndr _ _ => true
  | .stBIndr _ _ => true
  | .addDrct _ _ => true
  | .addIndex _ _ _ => true
  | .addImm _ _ => true
  | .addFpRlt _ dsp4 => dsp4Fits dsp4
  | .addReg _ _ => true
  | .addImm4 _ imm4 => imm4Fits imm4
  | .addIndr _ _ => true
  | .addBIndr _ _ => true
  | .subDrct _ _ => true
  | .subIndex _ _ _ => true
  | .subImm _ _ => true
  | .subFpRlt _ dsp4 => dsp4Fits dsp4
  | .subReg _ _ => true
  | .subImm4 _ imm4 => imm4Fits imm4
  | .subIndr _ _ => true
  | .subBIndr _ _ => true
  | .cmpDrct _ _ => true
  | .cmpIndex _ _ _ => true
  | .cmpImm _ _ => true
  | .cmpFpRlt _ dsp4 => dsp4Fits dsp4
  | .cmpReg _ _ => true
  | .cmpImm4 _ imm4 => imm4Fits imm4
  | .cmpIndr _ _ => true
  | .cmpBIndr _ _ => true
  | .andDrct _ _ => true
  | .andIndex _ _ _ => true
  | .andImm _ _ => true
  | .andFpRlt _ dsp4 => dsp4Fits dsp4
  | .andReg _ _ => true
  | .andImm4 _ imm4 => imm4Fits imm4
  | .andIndr _ _ => true
  | .andBIndr _ _ => true
  | .orDrct _ _ => true
  | .orIndex _ _ _ => true
  | .orImm _ _ => true
  | .orFpRlt _ dsp4 => dsp4Fits dsp4
  | .orReg _ _ => true
  | .orImm4 _ imm4 => imm4Fits imm4
  | .orIndr _ _ => true
  | .orBIndr _ _ => true
  | .xorDrct _ _ => true
  | .xorIndex _ _ _ => true
  | .xorImm _ _ => true
  | .xorFpRlt _ dsp4 => dsp4Fits dsp4
  | .xorReg _ _ => true
  | .xorImm4 _ imm4 => imm4Fits imm4
  | .xorIndr _ _ => true
  | .xorBIndr _ _ => true
  | .addsDrct _ _ => true
  | .addsIndex _ _ _ => true
  | .addsImm _ _ => true
  | .addsFpRlt _ dsp4 => dsp4Fits dsp4
  | .addsReg _ _ => true
  | .addsImm4 _ imm4 => imm4Fits imm4
  | .addsIndr _ _ => true
  | .addsBIndr _ _ => true
  | .mulDrct _ _ => true
  | .mulIndex _ _ _ => true
  | .mulImm _ _ => true
  | .mulFpRlt _ dsp4 => dsp4Fits dsp4
  | .mulReg _ _ => true
  | .mulImm4 _ imm4 => imm4Fits imm4
  | .mulIndr _ _ => true
  | .mulBIndr _ _ => true
  | .divDrct _ _ => true
  | .divIndex _ _ _ => true
  | .divImm _ _ => true
  | .divFpRlt _ dsp4 => dsp4Fits dsp4
  | .divReg _ _ => true
  | .divImm4 _ imm4 => imm4Fits imm4
  | .divIndr _ _ => true
  | .divBIndr _ _ => true
  | .modDrct _ _ => true
  | .modIndex _ _ _ => true
  | .modImm _ _ => true
  | .modFpRlt _ dsp4 => dsp4Fits dsp4
  | .modReg _ _ => true
  | .modImm4 _ imm4 => imm4Fits imm4
  | .modIndr _ _ => true
  | .modBIndr _ _ => true
  | .shlaDrct _ _ => true
  | .shlaIndex _ _ _ => true
  | .shlaImm _ _ => true
  | .shlaFpRlt _ dsp4 => dsp4Fits dsp4
  | .shlaReg _ _ => true
  | .shlaImm4 _ imm4 => imm4Fits imm4
  | .shlaIndr _ _ => true
  | .shlaBIndr _ _ => true
  | .shllDrct _ _ => true
  | .shllIndex _ _ _ => true
  | .shllImm _ _ => true
  | .shllFpRlt _ dsp4 => dsp4Fits dsp4
  | .shllReg _ _ => true
  | .shllImm4 _ imm4 => imm4Fits imm4
  | .shllIndr _ _ => true
  | .shllBIndr _ _ => true
  | .shraDrct _ _ => true
  | .shraIndex _ _ _ => true
  | .shraImm _ _ => true
  | .shraFpRlt _ dsp4 => dsp4Fits dsp4
  | .shraReg _ _ => true
  | .shraImm4 _ imm4 => imm4Fits imm4
  | .shraIndr _ _ => true
  | .shraBIndr _ _ => true
  | .shrlDrct _ _ => true
  | .shrlIndex _ _ _ => true
  | .shrlImm _ _ => true
  | .shrlFpRlt _ dsp4 => dsp4Fits dsp4
  | .shrlReg _ _ => true
  | .shrlImm4 _ imm4 => imm4Fits imm4
  | .shrlIndr _ _ => true
  | .shrlBIndr _ _ => true
  | .jzDrct _ => true
  | .jzIndex _ _ => true
  | .jcDrct _ => true
  | .jcIndex _ _ => true
  | .jmDrct _ => true
  | .jmIndex _ _ => true
  | .joDrct _ => true
  | .joIndex _ _ => true
  | .jgtDrct _ => true
  | .jgtIndex _ _ => true
  | .jgeDrct _ => true
  | .jgeIndex _ _ => true
  | .jleDrct _ => true
  | .jleIndex _ _ => true
  | .jltDrct _ => true
  | .jltIndex _ _ => true
  | .jnzDrct _ => true
  | .jnzIndex _ _ => true
  | .jncDrct _ => true
  | .jncIndex _ _ => true
  | .jnmDrct _ => true
  | .jnmIndex _ _ => true
  | .jnoDrct _ => true
  | .jnoIndex _ _ => true
  | .jhiDrct _ => true
  | .jhiIndex _ _ => true
  | .jlsDrct _ => true
  | .jlsIndex _ _ => true
  | .jmpDrct _ => true
  | .jmpIndex _ _ => true
  | .callDrct _ => true
  | .callIndex _ _ => true
  | .inDrct _ _ => true
  | .inIndr _ _ => true
  | .inBIndr _ _ => true
  | .outDrct _ _ => true
  | .outIndr _ _ => true
  | .outBIndr _ _ => true
  | .push _ => true
  | .pop _ => true
  | .ret => true
  | .reti => true
  | .svc => true
  | .halt => true

end Sys2Proof
end

