-- ==== Sys2Proof/Decode.lean ====
section
/-! DEFINITION. Decoding and encoding (30_encoding.md): the fields of the first word (R90), the opcode map (R100), the
jump conditions (R101), the fixed fields (R102), and what each word that spells no instruction is (R103, R104, R105).
Also the byte-order and bit-field helpers the machine uses. -/

namespace Sys2Proof

/-! ### Byte order (20_memory.md R50) -/

/-- Bits 15 to 8 of a word: the byte at the even address. -/
def highByte (w : Word) : Byte := w.extractLsb' 8 8

/-- Bits 7 to 0 of a word: the byte at the odd address. -/
def lowByte (w : Word) : Byte := w.extractLsb' 0 8

/-- The word of two bytes, the one at the lower address first. -/
def wordOfBytes (hi lo : Byte) : Word := hi ++ lo

/-! ### Register numbers (10_state.md R22) -/

/-- The register a 4-bit field names. -/
def Reg.ofNibble (n : BitVec 4) : Reg :=
  match n.toNat with
  | 0 => .gen .g0
  | 1 => .gen .g1
  | 2 => .gen .g2
  | 3 => .gen .g3
  | 4 => .gen .g4
  | 5 => .gen .g5
  | 6 => .gen .g6
  | 7 => .gen .g7
  | 8 => .gen .g8
  | 9 => .gen .g9
  | 10 => .gen .g10
  | 11 => .gen .g11
  | 12 => .gen .fp
  | 13 => .sp
  | 14 => .usp
  | _ => .flag

/-- The number of a general register. -/
def Gr.number : Gr → Nat
  | .g0 => 0
  | .g1 => 1
  | .g2 => 2
  | .g3 => 3
  | .g4 => 4
  | .g5 => 5
  | .g6 => 6
  | .g7 => 7
  | .g8 => 8
  | .g9 => 9
  | .g10 => 10
  | .g11 => 11
  | .fp => 12

/-- The 4-bit field that names a register. -/
def Reg.nibble : Reg → BitVec 4
  | .gen r => BitVec.ofNat 4 r.number
  | .sp => 0xD
  | .usp => 0xE
  | .flag => 0xF

/-! ### The signed fields I4 and D4 (30_encoding.md R95, R96) -/

/-- The number a short immediate field stands for. -/
def imm4Of (field : BitVec 4) : Int := field.toInt

/-- The byte displacement an FP-relative field stands for: D4 is half of Dsp4. -/
def dsp4Of (field : BitVec 4) : Int := 2 * field.toInt

/-- The field of a short immediate. -/
def imm4Field (n : Int) : BitVec 4 := BitVec.ofInt 4 n

/-- The field of an FP-relative displacement. -/
def dsp4Field (n : Int) : BitVec 4 := BitVec.ofInt 4 (n / 2)

/-! ### Operand forms by mode -/

/-- The operand form of a mode, for an instruction that has all eight; none where the word's Rx must be 0h and is not
(30_encoding.md R102). -/
def Ea.ofMode (mode : Nat) (rx : BitVec 4) (w2 : Word) : Option Ea :=
  match mode with
  | 0 => if rx = 0 then some (.mem (.drct w2)) else none
  | 1 => some (.mem (.index w2 (Reg.ofNibble rx)))
  | 2 => if rx = 0 then some (.imm w2) else none
  | 3 => some (.mem (.fpRlt (dsp4Of rx)))
  | 4 => some (.reg (Reg.ofNibble rx))
  | 5 => some (.imm4 (imm4Of rx))
  | 6 => some (.mem (.indr (Reg.ofNibble rx)))
  | _ => some (.mem (.bIndr (Reg.ofNibble rx)))

/-- The row of an eight-mode instruction for an operand form. -/
def Instr.ofEa (op : EaOp) (rd : Reg) (ea : Ea) : Instr :=
  match op, ea with
  | .ld, .mem (.drct dsp) => .ldDrct rd dsp
  | .ld, .mem (.index dsp rx) => .ldIndex rd rx dsp
  | .ld, .imm imm => .ldImm rd imm
  | .ld, .mem (.fpRlt dsp4) => .ldFpRlt rd dsp4
  | .ld, .reg rs => .ldReg rd rs
  | .ld, .imm4 imm4 => .ldImm4 rd imm4
  | .ld, .mem (.indr rx) => .ldIndr rd rx
  | .ld, .mem (.bIndr rx) => .ldBIndr rd rx
  | .add, .mem (.drct dsp) => .addDrct rd dsp
  | .add, .mem (.index dsp rx) => .addIndex rd rx dsp
  | .add, .imm imm => .addImm rd imm
  | .add, .mem (.fpRlt dsp4) => .addFpRlt rd dsp4
  | .add, .reg rs => .addReg rd rs
  | .add, .imm4 imm4 => .addImm4 rd imm4
  | .add, .mem (.indr rx) => .addIndr rd rx
  | .add, .mem (.bIndr rx) => .addBIndr rd rx
  | .sub, .mem (.drct dsp) => .subDrct rd dsp
  | .sub, .mem (.index dsp rx) => .subIndex rd rx dsp
  | .sub, .imm imm => .subImm rd imm
  | .sub, .mem (.fpRlt dsp4) => .subFpRlt rd dsp4
  | .sub, .reg rs => .subReg rd rs
  | .sub, .imm4 imm4 => .subImm4 rd imm4
  | .sub, .mem (.indr rx) => .subIndr rd rx
  | .sub, .mem (.bIndr rx) => .subBIndr rd rx
  | .cmp, .mem (.drct dsp) => .cmpDrct rd dsp
  | .cmp, .mem (.index dsp rx) => .cmpIndex rd rx dsp
  | .cmp, .imm imm => .cmpImm rd imm
  | .cmp, .mem (.fpRlt dsp4) => .cmpFpRlt rd dsp4
  | .cmp, .reg rs => .cmpReg rd rs
  | .cmp, .imm4 imm4 => .cmpImm4 rd imm4
  | .cmp, .mem (.indr rx) => .cmpIndr rd rx
  | .cmp, .mem (.bIndr rx) => .cmpBIndr rd rx
  | .and, .mem (.drct dsp) => .andDrct rd dsp
  | .and, .mem (.index dsp rx) => .andIndex rd rx dsp
  | .and, .imm imm => .andImm rd imm
  | .and, .mem (.fpRlt dsp4) => .andFpRlt rd dsp4
  | .and, .reg rs => .andReg rd rs
  | .and, .imm4 imm4 => .andImm4 rd imm4
  | .and, .mem (.indr rx) => .andIndr rd rx
  | .and, .mem (.bIndr rx) => .andBIndr rd rx
  | .or, .mem (.drct dsp) => .orDrct rd dsp
  | .or, .mem (.index dsp rx) => .orIndex rd rx dsp
  | .or, .imm imm => .orImm rd imm
  | .or, .mem (.fpRlt dsp4) => .orFpRlt rd dsp4
  | .or, .reg rs => .orReg rd rs
  | .or, .imm4 imm4 => .orImm4 rd imm4
  | .or, .mem (.indr rx) => .orIndr rd rx
  | .or, .mem (.bIndr rx) => .orBIndr rd rx
  | .xor, .mem (.drct dsp) => .xorDrct rd dsp
  | .xor, .mem (.index dsp rx) => .xorIndex rd rx dsp
  | .xor, .imm imm => .xorImm rd imm
  | .xor, .mem (.fpRlt dsp4) => .xorFpRlt rd dsp4
  | .xor, .reg rs => .xorReg rd rs
  | .xor, .imm4 imm4 => .xorImm4 rd imm4
  | .xor, .mem (.indr rx) => .xorIndr rd rx
  | .xor, .mem (.bIndr rx) => .xorBIndr rd rx
  | .adds, .mem (.drct dsp) => .addsDrct rd dsp
  | .adds, .mem (.index dsp rx) => .addsIndex rd rx dsp
  | .adds, .imm imm => .addsImm rd imm
  | .adds, .mem (.fpRlt dsp4) => .addsFpRlt rd dsp4
  | .adds, .reg rs => .addsReg rd rs
  | .adds, .imm4 imm4 => .addsImm4 rd imm4
  | .adds, .mem (.indr rx) => .addsIndr rd rx
  | .adds, .mem (.bIndr rx) => .addsBIndr rd rx
  | .mul, .mem (.drct dsp) => .mulDrct rd dsp
  | .mul, .mem (.index dsp rx) => .mulIndex rd rx dsp
  | .mul, .imm imm => .mulImm rd imm
  | .mul, .mem (.fpRlt dsp4) => .mulFpRlt rd dsp4
  | .mul, .reg rs => .mulReg rd rs
  | .mul, .imm4 imm4 => .mulImm4 rd imm4
  | .mul, .mem (.indr rx) => .mulIndr rd rx
  | .mul, .mem (.bIndr rx) => .mulBIndr rd rx
  | .div, .mem (.drct dsp) => .divDrct rd dsp
  | .div, .mem (.index dsp rx) => .divIndex rd rx dsp
  | .div, .imm imm => .divImm rd imm
  | .div, .mem (.fpRlt dsp4) => .divFpRlt rd dsp4
  | .div, .reg rs => .divReg rd rs
  | .div, .imm4 imm4 => .divImm4 rd imm4
  | .div, .mem (.indr rx) => .divIndr rd rx
  | .div, .mem (.bIndr rx) => .divBIndr rd rx
  | .mod, .mem (.drct dsp) => .modDrct rd dsp
  | .mod, .mem (.index dsp rx) => .modIndex rd rx dsp
  | .mod, .imm imm => .modImm rd imm
  | .mod, .mem (.fpRlt dsp4) => .modFpRlt rd dsp4
  | .mod, .reg rs => .modReg rd rs
  | .mod, .imm4 imm4 => .modImm4 rd imm4
  | .mod, .mem (.indr rx) => .modIndr rd rx
  | .mod, .mem (.bIndr rx) => .modBIndr rd rx
  | .shla, .mem (.drct dsp) => .shlaDrct rd dsp
  | .shla, .mem (.index dsp rx) => .shlaIndex rd rx dsp
  | .shla, .imm imm => .shlaImm rd imm
  | .shla, .mem (.fpRlt dsp4) => .shlaFpRlt rd dsp4
  | .shla, .reg rs => .shlaReg rd rs
  | .shla, .imm4 imm4 => .shlaImm4 rd imm4
  | .shla, .mem (.indr rx) => .shlaIndr rd rx
  | .shla, .mem (.bIndr rx) => .shlaBIndr rd rx
  | .shll, .mem (.drct dsp) => .shllDrct rd dsp
  | .shll, .mem (.index dsp rx) => .shllIndex rd rx dsp
  | .shll, .imm imm => .shllImm rd imm
  | .shll, .mem (.fpRlt dsp4) => .shllFpRlt rd dsp4
  | .shll, .reg rs => .shllReg rd rs
  | .shll, .imm4 imm4 => .shllImm4 rd imm4
  | .shll, .mem (.indr rx) => .shllIndr rd rx
  | .shll, .mem (.bIndr rx) => .shllBIndr rd rx
  | .shra, .mem (.drct dsp) => .shraDrct rd dsp
  | .shra, .mem (.index dsp rx) => .shraIndex rd rx dsp
  | .shra, .imm imm => .shraImm rd imm
  | .shra, .mem (.fpRlt dsp4) => .shraFpRlt rd dsp4
  | .shra, .reg rs => .shraReg rd rs
  | .shra, .imm4 imm4 => .shraImm4 rd imm4
  | .shra, .mem (.indr rx) => .shraIndr rd rx
  | .shra, .mem (.bIndr rx) => .shraBIndr rd rx
  | .shrl, .mem (.drct dsp) => .shrlDrct rd dsp
  | .shrl, .mem (.index dsp rx) => .shrlIndex rd rx dsp
  | .shrl, .imm imm => .shrlImm rd imm
  | .shrl, .mem (.fpRlt dsp4) => .shrlFpRlt rd dsp4
  | .shrl, .reg rs => .shrlReg rd rs
  | .shrl, .imm4 imm4 => .shrlImm4 rd imm4
  | .shrl, .mem (.indr rx) => .shrlIndr rd rx
  | .shrl, .mem (.bIndr rx) => .shrlBIndr rd rx

/-- The row of ST for an address form (40_no_ld_st.md R133: modes 0, 1, 3, 6, 7). -/
def Instr.ofSt (rd : Reg) (m : MemEa) : Instr :=
  match m with
  | .drct dsp => .stDrct rd dsp
  | .index dsp rx => .stIndex rd rx dsp
  | .fpRlt dsp4 => .stFpRlt rd dsp4
  | .indr rx => .stIndr rd rx
  | .bIndr rx => .stBIndr rd rx

/-- The row of a jump in mode 0. -/
def Instr.ofJumpDrct (k : Cond) (dsp : Word) : Instr :=
  match k with
  | .z => .jzDrct dsp
  | .c => .jcDrct dsp
  | .m => .jmDrct dsp
  | .o => .joDrct dsp
  | .gt => .jgtDrct dsp
  | .ge => .jgeDrct dsp
  | .le => .jleDrct dsp
  | .lt => .jltDrct dsp
  | .nz => .jnzDrct dsp
  | .nc => .jncDrct dsp
  | .nm => .jnmDrct dsp
  | .no => .jnoDrct dsp
  | .hi => .jhiDrct dsp
  | .ls => .jlsDrct dsp
  | .always => .jmpDrct dsp

/-- The row of a jump in mode 1. -/
def Instr.ofJumpIndex (k : Cond) (rx : Reg) (dsp : Word) : Instr :=
  match k with
  | .z => .jzIndex rx dsp
  | .c => .jcIndex rx dsp
  | .m => .jmIndex rx dsp
  | .o => .joIndex rx dsp
  | .gt => .jgtIndex rx dsp
  | .ge => .jgeIndex rx dsp
  | .le => .jleIndex rx dsp
  | .lt => .jltIndex rx dsp
  | .nz => .jnzIndex rx dsp
  | .nc => .jncIndex rx dsp
  | .nm => .jnmIndex rx dsp
  | .no => .jnoIndex rx dsp
  | .hi => .jhiIndex rx dsp
  | .ls => .jlsIndex rx dsp
  | .always => .jmpIndex rx dsp

/-- The condition a jump's Rd field selects (30_encoding.md R101); Dh selects none. -/
def Cond.ofNibble (n : BitVec 4) : Option Cond :=
  match n.toNat with
  | 0 => some .z
  | 1 => some .c
  | 2 => some .m
  | 3 => some .o
  | 4 => some .gt
  | 5 => some .ge
  | 6 => some .le
  | 7 => some .lt
  | 8 => some .nz
  | 9 => some .nc
  | 10 => some .nm
  | 11 => some .no
  | 12 => some .hi
  | 13 => none
  | 14 => some .ls
  | _ => some .always

/-! ### Decoding -/

/-- What a first word and the word after it spell. -/
inductive Decoded where
  /-- an instruction of the opcode map -/
  | instr (i : Instr)
  /-- an OP byte whose cell is empty: an undefined instruction (30_encoding.md R103) -/
  | undefined
  /-- a defined OP byte with a reserved field value, or jump condition Dh (30_encoding.md R104) -/
  | reserved
  /-- OP byte A6h or AEh, which the parameter JUMP_INDR governs (30_encoding.md R105) -/
  | indirect (w1 : Word)
  deriving DecidableEq, Repr

/-- OP bits 15 to 11: the row of the opcode map. -/
def op5Of (w1 : Word) : Nat := (w1.extractLsb' 11 5).toNat

/-- OP bits 10 to 8: the column of the opcode map. -/
def modeOf (w1 : Word) : Nat := (w1.extractLsb' 8 3).toNat

/-- The Rd field, bits 7 to 4. -/
def rdField (w1 : Word) : BitVec 4 := w1.extractLsb' 4 4

/-- The Rx field, bits 3 to 0. -/
def rxField (w1 : Word) : BitVec 4 := w1.extractLsb' 0 4

/-- A word without operands: its Rd and Rx fields are fixed (30_encoding.md R102). -/
def decodeFixed (rd rx wantRd : BitVec 4) (i : Instr) : Decoded :=
  if rd = wantRd ∧ rx = 0 then .instr i else .reserved

/-- A word of a one-register instruction: Rx is 0h (30_encoding.md R102, format *8). -/
def decodeReg (rd rx : BitVec 4) (i : Reg → Instr) : Decoded :=
  if rx = 0 then .instr (i (Reg.ofNibble rd)) else .reserved

/-- A row of the opcode map that has all eight modes. -/
def decodeEa (op : EaOp) (mode : Nat) (rd rx : BitVec 4) (w2 : Word) : Decoded :=
  match Ea.ofMode mode rx w2 with
  | some ea => .instr (Instr.ofEa op (Reg.ofNibble rd) ea)
  | none => .reserved

/-- Row 00010: ST, whose modes 2, 4 and 5 are empty cells. -/
def decodeSt (mode : Nat) (rd rx : BitVec 4) (w2 : Word) : Decoded :=
  match mode, Ea.ofMode mode rx w2 with
  | 2, _ => .undefined
  | 4, _ => .undefined
  | 5, _ => .undefined
  | _, some (.mem m) => .instr (Instr.ofSt (Reg.ofNibble rd) m)
  | _, _ => .reserved

/-- Row 10100: the fifteen jumps. -/
def decodeJump (w1 : Word) (mode : Nat) (rd rx : BitVec 4) (w2 : Word) : Decoded :=
  match mode with
  | 0 =>
    match Cond.ofNibble rd with
    | some k => if rx = 0 then .instr (Instr.ofJumpDrct k w2) else .reserved
    | none => .reserved
  | 1 =>
    match Cond.ofNibble rd with
    | some k => .instr (Instr.ofJumpIndex k (Reg.ofNibble rx) w2)
    | none => .reserved
  | 6 => .indirect w1
  | _ => .undefined

/-- Row 10101: CALL. -/
def decodeCall (w1 : Word) (mode : Nat) (rd rx : BitVec 4) (w2 : Word) : Decoded :=
  match mode with
  | 0 => if rd = 0 ∧ rx = 0 then .instr (.callDrct w2) else .reserved
  | 1 => if rd = 0 then .instr (.callIndex (Reg.ofNibble rx) w2) else .reserved
  | 6 => .indirect w1
  | _ => .undefined

/-- Row 10110: IN, modes 0, 6, 7. -/
def decodeIn (mode : Nat) (rd rx : BitVec 4) (w2 : Word) : Decoded :=
  match mode with
  | 0 => if rx = 0 then .instr (.inDrct (Reg.ofNibble rd) w2) else .reserved
  | 6 => .instr (.inIndr (Reg.ofNibble rd) (Reg.ofNibble rx))
  | 7 => .instr (.inBIndr (Reg.ofNibble rd) (Reg.ofNibble rx))
  | _ => .undefined

/-- Row 10111: OUT, modes 0, 6, 7. -/
def decodeOut (mode : Nat) (rd rx : BitVec 4) (w2 : Word) : Decoded :=
  match mode with
  | 0 => if rx = 0 then .instr (.outDrct (Reg.ofNibble rd) w2) else .reserved
  | 6 => .instr (.outIndr (Reg.ofNibble rd) (Reg.ofNibble rx))
  | 7 => .instr (.outBIndr (Reg.ofNibble rd) (Reg.ofNibble rx))
  | _ => .undefined

/-- The opcode map (30_encoding.md R100), by row (op5) and column (mode). -/
def decodeFields (w1 : Word) (op5 mode : Nat) (rd rx : BitVec 4) (w2 : Word) : Decoded :=
  match op5 with
  | 0x00 => match mode with
    | 0 => decodeFixed rd rx 0 .no
    | _ => .undefined
  | 0x01 => decodeEa .ld mode rd rx w2
  | 0x02 => decodeSt mode rd rx w2
  | 0x03 => decodeEa .add mode rd rx w2
  | 0x04 => decodeEa .sub mode rd rx w2
  | 0x05 => decodeEa .cmp mode rd rx w2
  | 0x06 => decodeEa .and mode rd rx w2
  | 0x07 => decodeEa .or mode rd rx w2
  | 0x08 => decodeEa .xor mode rd rx w2
  | 0x09 => decodeEa .adds mode rd rx w2
  | 0x0A => decodeEa .mul mode rd rx w2
  | 0x0B => decodeEa .div mode rd rx w2
  | 0x0C => decodeEa .mod mode rd rx w2
  | 0x10 => decodeEa .shla mode rd rx w2
  | 0x11 => decodeEa .shll mode rd rx w2
  | 0x12 => decodeEa .shra mode rd rx w2
  | 0x13 => decodeEa .shrl mode rd rx w2
  | 0x14 => decodeJump w1 mode rd rx w2
  | 0x15 => decodeCall w1 mode rd rx w2
  | 0x16 => decodeIn mode rd rx w2
  | 0x17 => decodeOut mode rd rx w2
  | 0x18 => match mode with
    | 0 => decodeReg rd rx .push
    | 4 => decodeReg rd rx .pop
    | _ => .undefined
  | 0x1A => match mode with
    | 0 => decodeFixed rd rx 0 .ret
    | 4 => decodeFixed rd rx 0xF .reti
    | _ => .undefined
  | 0x1E => match mode with
    | 0 => decodeFixed rd rx 0 .svc
    | _ => .undefined
  | 0x1F => match mode with
    | 7 => decodeFixed rd rx 0 .halt
    | _ => .undefined
  | _ => .undefined

/-- What two consecutive words spell; a one-word instruction does not look at the second. -/
def decode (w1 w2 : Word) : Decoded :=
  decodeFields w1 (op5Of w1) (modeOf w1) (rdField w1) (rxField w1) w2

/-- The rows of the opcode map whose instructions take a second word in modes 0, 1 and 2 (30_encoding.md R92). -/
def takesEa (op5 : Nat) : Bool := (0x01 ≤ op5 && op5 ≤ 0x0C) || (0x10 ≤ op5 && op5 ≤ 0x17)

/-- Whether a first word begins a two-word instruction (30_encoding.md R92): it spells an instruction, in a row that
takes an operand and in mode 0, 1 or 2. -/
def hasSecondWord (w1 : Word) : Bool :=
  match decode w1 0 with
  | .instr _ => takesEa (op5Of w1) && decide (modeOf w1 < 3)
  | _ => false

/-- Decoding of a list of words: the instruction the first word begins. -/
def decodeWords (ws : List Word) : Decoded := decode (ws.getD 0 0) (ws.getD 1 0)

/-- Decoding of bytes as they lie in memory, lowest address first (20_memory.md R50). -/
def decodeBytes (bs : List Byte) : Decoded :=
  decode (wordOfBytes (bs.getD 0 0) (bs.getD 1 0)) (wordOfBytes (bs.getD 2 0) (bs.getD 3 0))

/-! ### Encoding -/

/-- A first word from its OP byte and its Rd and Rx fields (30_encoding.md R90). -/
def word1 (op : Byte) (rd rx : BitVec 4) : Word := op ++ rd ++ rx

/-- The words of an instruction, from the formats of 30_encoding.md R91 and the opcodes of R100 to R102. -/
def encode : Instr → List Word
  | .no => [word1 0x00 0 0]
  | .ldDrct rd dsp => [word1 0x08 rd.nibble 0, dsp]
  | .ldIndex rd rx dsp => [word1 0x09 rd.nibble rx.nibble, dsp]
  | .ldImm rd imm => [word1 0x0A rd.nibble 0, imm]
  | .ldFpRlt rd dsp4 => [word1 0x0B rd.nibble (dsp4Field dsp4)]
  | .ldReg rd rs => [word1 0x0C rd.nibble rs.nibble]
  | .ldImm4 rd imm4 => [word1 0x0D rd.nibble (imm4Field imm4)]
  | .ldIndr rd rx => [word1 0x0E rd.nibble rx.nibble]
  | .ldBIndr rd rx => [word1 0x0F rd.nibble rx.nibble]
  | .stDrct rd dsp => [word1 0x10 rd.nibble 0, dsp]
  | .stIndex rd rx dsp => [word1 0x11 rd.nibble rx.nibble, dsp]
  | .stFpRlt rd dsp4 => [word1 0x13 rd.nibble (dsp4Field dsp4)]
  | .stIndr rd rx => [word1 0x16 rd.nibble rx.nibble]
  | .stBIndr rd rx => [word1 0x17 rd.nibble rx.nibble]
  | .addDrct rd dsp => [word1 0x18 rd.nibble 0, dsp]
  | .addIndex rd rx dsp => [word1 0x19 rd.nibble rx.nibble, dsp]
  | .addImm rd imm => [word1 0x1A rd.nibble 0, imm]
  | .addFpRlt rd dsp4 => [word1 0x1B rd.nibble (dsp4Field dsp4)]
  | .addReg rd rs => [word1 0x1C rd.nibble rs.nibble]
  | .addImm4 rd imm4 => [word1 0x1D rd.nibble (imm4Field imm4)]
  | .addIndr rd rx => [word1 0x1E rd.nibble rx.nibble]
  | .addBIndr rd rx => [word1 0x1F rd.nibble rx.nibble]
  | .subDrct rd dsp => [word1 0x20 rd.nibble 0, dsp]
  | .subIndex rd rx dsp => [word1 0x21 rd.nibble rx.nibble, dsp]
  | .subImm rd imm => [word1 0x22 rd.nibble 0, imm]
  | .subFpRlt rd dsp4 => [word1 0x23 rd.nibble (dsp4Field dsp4)]
  | .subReg rd rs => [word1 0x24 rd.nibble rs.nibble]
  | .subImm4 rd imm4 => [word1 0x25 rd.nibble (imm4Field imm4)]
  | .subIndr rd rx => [word1 0x26 rd.nibble rx.nibble]
  | .subBIndr rd rx => [word1 0x27 rd.nibble rx.nibble]
  | .cmpDrct rd dsp => [word1 0x28 rd.nibble 0, dsp]
  | .cmpIndex rd rx dsp => [word1 0x29 rd.nibble rx.nibble, dsp]
  | .cmpImm rd imm => [word1 0x2A rd.nibble 0, imm]
  | .cmpFpRlt rd dsp4 => [word1 0x2B rd.nibble (dsp4Field dsp4)]
  | .cmpReg rd rs => [word1 0x2C rd.nibble rs.nibble]
  | .cmpImm4 rd imm4 => [word1 0x2D rd.nibble (imm4Field imm4)]
  | .cmpIndr rd rx => [word1 0x2E rd.nibble rx.nibble]
  | .cmpBIndr rd rx => [word1 0x2F rd.nibble rx.nibble]
  | .andDrct rd dsp => [word1 0x30 rd.nibble 0, dsp]
  | .andIndex rd rx dsp => [word1 0x31 rd.nibble rx.nibble, dsp]
  | .andImm rd imm => [word1 0x32 rd.nibble 0, imm]
  | .andFpRlt rd dsp4 => [word1 0x33 rd.nibble (dsp4Field dsp4)]
  | .andReg rd rs => [word1 0x34 rd.nibble rs.nibble]
  | .andImm4 rd imm4 => [word1 0x35 rd.nibble (imm4Field imm4)]
  | .andIndr rd rx => [word1 0x36 rd.nibble rx.nibble]
  | .andBIndr rd rx => [word1 0x37 rd.nibble rx.nibble]
  | .orDrct rd dsp => [word1 0x38 rd.nibble 0, dsp]
  | .orIndex rd rx dsp => [word1 0x39 rd.nibble rx.nibble, dsp]
  | .orImm rd imm => [word1 0x3A rd.nibble 0, imm]
  | .orFpRlt rd dsp4 => [word1 0x3B rd.nibble (dsp4Field dsp4)]
  | .orReg rd rs => [word1 0x3C rd.nibble rs.nibble]
  | .orImm4 rd imm4 => [word1 0x3D rd.nibble (imm4Field imm4)]
  | .orIndr rd rx => [word1 0x3E rd.nibble rx.nibble]
  | .orBIndr rd rx => [word1 0x3F rd.nibble rx.nibble]
  | .xorDrct rd dsp => [word1 0x40 rd.nibble 0, dsp]
  | .xorIndex rd rx dsp => [word1 0x41 rd.nibble rx.nibble, dsp]
  | .xorImm rd imm => [word1 0x42 rd.nibble 0, imm]
  | .xorFpRlt rd dsp4 => [word1 0x43 rd.nibble (dsp4Field dsp4)]
  | .xorReg rd rs => [word1 0x44 rd.nibble rs.nibble]
  | .xorImm4 rd imm4 => [word1 0x45 rd.nibble (imm4Field imm4)]
  | .xorIndr rd rx => [word1 0x46 rd.nibble rx.nibble]
  | .xorBIndr rd rx => [word1 0x47 rd.nibble rx.nibble]
  | .addsDrct rd dsp => [word1 0x48 rd.nibble 0, dsp]
  | .addsIndex rd rx dsp => [word1 0x49 rd.nibble rx.nibble, dsp]
  | .addsImm rd imm => [word1 0x4A rd.nibble 0, imm]
  | .addsFpRlt rd dsp4 => [word1 0x4B rd.nibble (dsp4Field dsp4)]
  | .addsReg rd rs => [word1 0x4C rd.nibble rs.nibble]
  | .addsImm4 rd imm4 => [word1 0x4D rd.nibble (imm4Field imm4)]
  | .addsIndr rd rx => [word1 0x4E rd.nibble rx.nibble]
  | .addsBIndr rd rx => [word1 0x4F rd.nibble rx.nibble]
  | .mulDrct rd dsp => [word1 0x50 rd.nibble 0, dsp]
  | .mulIndex rd rx dsp => [word1 0x51 rd.nibble rx.nibble, dsp]
  | .mulImm rd imm => [word1 0x52 rd.nibble 0, imm]
  | .mulFpRlt rd dsp4 => [word1 0x53 rd.nibble (dsp4Field dsp4)]
  | .mulReg rd rs => [word1 0x54 rd.nibble rs.nibble]
  | .mulImm4 rd imm4 => [word1 0x55 rd.nibble (imm4Field imm4)]
  | .mulIndr rd rx => [word1 0x56 rd.nibble rx.nibble]
  | .mulBIndr rd rx => [word1 0x57 rd.nibble rx.nibble]
  | .divDrct rd dsp => [word1 0x58 rd.nibble 0, dsp]
  | .divIndex rd rx dsp => [word1 0x59 rd.nibble rx.nibble, dsp]
  | .divImm rd imm => [word1 0x5A rd.nibble 0, imm]
  | .divFpRlt rd dsp4 => [word1 0x5B rd.nibble (dsp4Field dsp4)]
  | .divReg rd rs => [word1 0x5C rd.nibble rs.nibble]
  | .divImm4 rd imm4 => [word1 0x5D rd.nibble (imm4Field imm4)]
  | .divIndr rd rx => [word1 0x5E rd.nibble rx.nibble]
  | .divBIndr rd rx => [word1 0x5F rd.nibble rx.nibble]
  | .modDrct rd dsp => [word1 0x60 rd.nibble 0, dsp]
  | .modIndex rd rx dsp => [word1 0x61 rd.nibble rx.nibble, dsp]
  | .modImm rd imm => [word1 0x62 rd.nibble 0, imm]
  | .modFpRlt rd dsp4 => [word1 0x63 rd.nibble (dsp4Field dsp4)]
  | .modReg rd rs => [word1 0x64 rd.nibble rs.nibble]
  | .modImm4 rd imm4 => [word1 0x65 rd.nibble (imm4Field imm4)]
  | .modIndr rd rx => [word1 0x66 rd.nibble rx.nibble]
  | .modBIndr rd rx => [word1 0x67 rd.nibble rx.nibble]
  | .shlaDrct rd dsp => [word1 0x80 rd.nibble 0, dsp]
  | .shlaIndex rd rx dsp => [word1 0x81 rd.nibble rx.nibble, dsp]
  | .shlaImm rd imm => [word1 0x82 rd.nibble 0, imm]
  | .shlaFpRlt rd dsp4 => [word1 0x83 rd.nibble (dsp4Field dsp4)]
  | .shlaReg rd rs => [word1 0x84 rd.nibble rs.nibble]
  | .shlaImm4 rd imm4 => [word1 0x85 rd.nibble (imm4Field imm4)]
  | .shlaIndr rd rx => [word1 0x86 rd.nibble rx.nibble]
  | .shlaBIndr rd rx => [word1 0x87 rd.nibble rx.nibble]
  | .shllDrct rd dsp => [word1 0x88 rd.nibble 0, dsp]
  | .shllIndex rd rx dsp => [word1 0x89 rd.nibble rx.nibble, dsp]
  | .shllImm rd imm => [word1 0x8A rd.nibble 0, imm]
  | .shllFpRlt rd dsp4 => [word1 0x8B rd.nibble (dsp4Field dsp4)]
  | .shllReg rd rs => [word1 0x8C rd.nibble rs.nibble]
  | .shllImm4 rd imm4 => [word1 0x8D rd.nibble (imm4Field imm4)]
  | .shllIndr rd rx => [word1 0x8E rd.nibble rx.nibble]
  | .shllBIndr rd rx => [word1 0x8F rd.nibble rx.nibble]
  | .shraDrct rd dsp => [word1 0x90 rd.nibble 0, dsp]
  | .shraIndex rd rx dsp => [word1 0x91 rd.nibble rx.nibble, dsp]
  | .shraImm rd imm => [word1 0x92 rd.nibble 0, imm]
  | .shraFpRlt rd dsp4 => [word1 0x93 rd.nibble (dsp4Field dsp4)]
  | .shraReg rd rs => [word1 0x94 rd.nibble rs.nibble]
  | .shraImm4 rd imm4 => [word1 0x95 rd.nibble (imm4Field imm4)]
  | .shraIndr rd rx => [word1 0x96 rd.nibble rx.nibble]
  | .shraBIndr rd rx => [word1 0x97 rd.nibble rx.nibble]
  | .shrlDrct rd dsp => [word1 0x98 rd.nibble 0, dsp]
  | .shrlIndex rd rx dsp => [word1 0x99 rd.nibble rx.nibble, dsp]
  | .shrlImm rd imm => [word1 0x9A rd.nibble 0, imm]
  | .shrlFpRlt rd dsp4 => [word1 0x9B rd.nibble (dsp4Field dsp4)]
  | .shrlReg rd rs => [word1 0x9C rd.nibble rs.nibble]
  | .shrlImm4 rd imm4 => [word1 0x9D rd.nibble (imm4Field imm4)]
  | .shrlIndr rd rx => [word1 0x9E rd.nibble rx.nibble]
  | .shrlBIndr rd rx => [word1 0x9F rd.nibble rx.nibble]
  | .jzDrct dsp => [word1 0xA0 0x0 0, dsp]
  | .jzIndex rx dsp => [word1 0xA1 0x0 rx.nibble, dsp]
  | .jcDrct dsp => [word1 0xA0 0x1 0, dsp]
  | .jcIndex rx dsp => [word1 0xA1 0x1 rx.nibble, dsp]
  | .jmDrct dsp => [word1 0xA0 0x2 0, dsp]
  | .jmIndex rx dsp => [word1 0xA1 0x2 rx.nibble, dsp]
  | .joDrct dsp => [word1 0xA0 0x3 0, dsp]
  | .joIndex rx dsp => [word1 0xA1 0x3 rx.nibble, dsp]
  | .jgtDrct dsp => [word1 0xA0 0x4 0, dsp]
  | .jgtIndex rx dsp => [word1 0xA1 0x4 rx.nibble, dsp]
  | .jgeDrct dsp => [word1 0xA0 0x5 0, dsp]
  | .jgeIndex rx dsp => [word1 0xA1 0x5 rx.nibble, dsp]
  | .jleDrct dsp => [word1 0xA0 0x6 0, dsp]
  | .jleIndex rx dsp => [word1 0xA1 0x6 rx.nibble, dsp]
  | .jltDrct dsp => [word1 0xA0 0x7 0, dsp]
  | .jltIndex rx dsp => [word1 0xA1 0x7 rx.nibble, dsp]
  | .jnzDrct dsp => [word1 0xA0 0x8 0, dsp]
  | .jnzIndex rx dsp => [word1 0xA1 0x8 rx.nibble, dsp]
  | .jncDrct dsp => [word1 0xA0 0x9 0, dsp]
  | .jncIndex rx dsp => [word1 0xA1 0x9 rx.nibble, dsp]
  | .jnmDrct dsp => [word1 0xA0 0xa 0, dsp]
  | .jnmIndex rx dsp => [word1 0xA1 0xa rx.nibble, dsp]
  | .jnoDrct dsp => [word1 0xA0 0xb 0, dsp]
  | .jnoIndex rx dsp => [word1 0xA1 0xb rx.nibble, dsp]
  | .jhiDrct dsp => [word1 0xA0 0xc 0, dsp]
  | .jhiIndex rx dsp => [word1 0xA1 0xc rx.nibble, dsp]
  | .jlsDrct dsp => [word1 0xA0 0xe 0, dsp]
  | .jlsIndex rx dsp => [word1 0xA1 0xe rx.nibble, dsp]
  | .jmpDrct dsp => [word1 0xA0 0xf 0, dsp]
  | .jmpIndex rx dsp => [word1 0xA1 0xf rx.nibble, dsp]
  | .callDrct dsp => [word1 0xA8 0 0, dsp]
  | .callIndex rx dsp => [word1 0xA9 0 rx.nibble, dsp]
  | .inDrct rd dsp => [word1 0xB0 rd.nibble 0, dsp]
  | .inIndr rd rx => [word1 0xB6 rd.nibble rx.nibble]
  | .inBIndr rd rx => [word1 0xB7 rd.nibble rx.nibble]
  | .outDrct rd dsp => [word1 0xB8 rd.nibble 0, dsp]
  | .outIndr rd rx => [word1 0xBE rd.nibble rx.nibble]
  | .outBIndr rd rx => [word1 0xBF rd.nibble rx.nibble]
  | .push rd => [word1 0xC0 rd.nibble 0]
  | .pop rd => [word1 0xC4 rd.nibble 0]
  | .ret => [word1 0xD0 0 0]
  | .reti => [word1 0xD4 0xF 0]
  | .svc => [word1 0xF0 0 0]
  | .halt => [word1 0xFF 0 0]

/-- The bytes of an instruction as they lie in memory. -/
def encodeBytes (i : Instr) : List Byte := (encode i).flatMap fun w => [highByte w, lowByte w]

/-- The host's question: the instruction the decoder reads from an instruction whose words are numbered from the first
word's bit 0 upwards (spec/opcode_table.json), every bit above `nbits` being 0. The words are laid out as bytes in memory
order and given to the decoder. -/
def decodeTableWord (nbits w : Nat) : Option Instr :=
  let bits := w % 2 ^ nbits
  let first := BitVec.ofNat 16 bits
  let second := BitVec.ofNat 16 (bits / 65536)
  match decodeBytes [highByte first, lowByte first, highByte second, lowByte second] with
  | .instr i => some i
  | _ => none

end Sys2Proof
end

