-- ==== Sys2Proof/Config.lean ====
section
/-! DEFINITION. What the sources leave to an implementation: the named parameters of 00_scope.md R6 as plain data
(the State carries one record of them, so a statement about every state is one about every choice of parameters), and
the uninterpreted constants, which have no body: nothing can be proved of their values. -/

namespace Sys2Proof.Config

/-- `MISALIGNED_WORD` (20_memory.md R52): what a word access or a fetch at an odd address does. -/
inductive MisalignedWord where
  | refuse
  | ignoreBit0
  | memViolation
  deriving DecidableEq, Repr

/-- `JUMP_INDR` (30_encoding.md R105): what the OP bytes A6h and AEh do. -/
inductive JumpIndr where
  | refuse
  | jump
  | undefined
  deriving DecidableEq, Repr

/-- `FAULT_SAVED_PC` (60_exceptions.md R307): which pc a synchronous exception other than SVC saves. -/
inductive SavedPc where
  | this
  | next
  | any
  deriving DecidableEq, Repr

/-- The parameters that the machine's rules read. `resetPc` is `RESET_PC` (10_state.md R35, 20_memory.md R62); `irqOrder`
is `IRQ_PRIORITY`: the interrupt numbers, first taken first; the empty list is the default "any pending one"
(60_exceptions.md R315). -/
structure Params where
  misaligned : MisalignedWord
  jumpIndr : JumpIndr
  tlbMissPc : SavedPc
  memViolationPc : SavedPc
  zeroDividePc : SavedPc
  privViolationPc : SavedPc
  undefinedPc : SavedPc
  resetPc : Word
  irqOrder : List Nat
  deriving DecidableEq, Repr

/-- The defaults the table of 00_scope.md R6 recommends. -/
def Params.default : Params where
  misaligned := .refuse
  jumpIndr := .refuse
  tlbMissPc := .any
  memViolationPc := .any
  zeroDividePc := .any
  privViolationPc := .any
  undefinedPc := .any
  resetPc := 0xE000
  irqOrder := []

/-- The free bits `any1` of 00_scope.md R11: the n-th draw of a run, if it is a bit. -/
opaque freeBit : Nat → Bool

/-- The free words `any16` of 00_scope.md R11: the n-th draw of a run, if it is a word. -/
opaque freeWord : Nat → Word

/-- `DIV_FN` (41_arith_logic.md R160): a function of the operands alone, otherwise unknown. -/
opaque divFn : Word → Word → Word

/-- `MOD_FN` (41_arith_logic.md R161): a function of the operands alone, otherwise unknown. -/
opaque modFn : Word → Word → Word

/-- `IPL_IMAGE` (20_memory.md R61): the byte of the IPL ROM seen at a memory address E000h to FFFFh. -/
opaque iplImage : Nat → Byte

/-- DESIGN CHOICE (log 3). What a byte of RAM that nothing has written holds: unknown, fixed for the run. -/
opaque powerOnByte : Nat → Byte

end Sys2Proof.Config
end

