-- ==== Sys2Proof/Machine/State.lean ====
section
/-! DEFINITION. The state of the machine (10_state.md), the exceptions (60_exceptions.md R300), the ways a step can stop,
and the state after reset. -/

namespace Sys2Proof.Machine

/-- The general registers G0 to G11 and G12 (FP) (10_state.md R20, R21, R23). -/
structure Regs where
  g0 : Word
  g1 : Word
  g2 : Word
  g3 : Word
  g4 : Word
  g5 : Word
  g6 : Word
  g7 : Word
  g8 : Word
  g9 : Word
  g10 : Word
  g11 : Word
  fp : Word
  deriving DecidableEq, Repr

/-- FLAG (10_state.md R26): its seven defined bits. Bits 15 to 8 and bit 4 are always 0 and are not stored. -/
structure Flag where
  /-- bit 7, interrupt enable -/
  e : Bool
  /-- bit 6, privileged mode -/
  p : Bool
  /-- bit 5, I/O privileged mode -/
  i : Bool
  /-- bit 3, overflow -/
  v : Bool
  /-- bit 2, carry -/
  c : Bool
  /-- bit 1, sign -/
  s : Bool
  /-- bit 0, zero -/
  z : Bool
  deriving DecidableEq, Repr

/-- Bytes by address: the bytes that have been written, addresses strictly rising (`Memory.wf`, Machine/Ops.lean). An
address that is not listed has no entry: it "holds no value" (10_state.md R35). What the machine reads there is
`State.byteAt`. -/
abbrev Memory := List Host.Cell

/-- Whether an I/O event is an IN or an OUT. -/
inductive IoDirection where
  | input
  | output
  deriving DecidableEq, Repr

/-- An I/O access as 44_in_out.md R232 records it: direction, I/O address, width in bytes, value. -/
structure IoEvent where
  direction : IoDirection
  port : Word
  bytes : Nat
  value : Word
  deriving DecidableEq, Repr

/-- The state of the machine. -/
structure State where
  /-- G0 to G11 and FP (10_state.md R20, R21, R23) -/
  regs : Regs
  /-- the system stack pointer (10_state.md R24) -/
  ssp : Word
  /-- the user stack pointer (10_state.md R24) -/
  usp : Word
  /-- the program counter (10_state.md R25) -/
  pc : Word
  /-- FLAG (10_state.md R26) -/
  flag : Flag
  /-- the RAM, 0000h to FFFFh (20_memory.md R60) -/
  mem : Memory
  /-- the bytes of the IPL ROM that are known; the others are `Config.iplImage` (20_memory.md R61) -/
  rom : Memory
  /-- whether the IPL ROM is attached (10_state.md R34(c)) -/
  iplAttached : Bool
  /-- set by HALT (10_state.md R34(b)) -/
  halted : Bool
  /-- bit n: device interrupt n is requesting (10_state.md R34(a)) -/
  pending : BitVec 10
  /-- port A2h bit 0 (20_memory.md R70) -/
  relocation : Bool
  /-- port A2h bit 1 (20_memory.md R70) -/
  paging : Bool
  /-- the base register, port A4h on a write (20_memory.md R70) -/
  base : Word
  /-- the limit register, port A6h on a write (20_memory.md R70) -/
  limit : Word
  /-- the memory-protection-violation cause, port A4h on a read (20_memory.md R70): the value last presented -/
  mmuCause : Word
  /-- the faulting page number, port A6h on a read (20_memory.md R70): the value last presented -/
  faultPage : Word
  /-- TLB[0] to TLB[7] (20_memory.md R70, R71) -/
  tlb : Vector (BitVec 24) 8
  /-- the device registers an OUT writes, by port byte (60_exceptions.md R350); read through the names of Machine/Io.lean -/
  io : Memory
  /-- the MODEL's own field: the I/O events, the latest first (44_in_out.md R232) -/
  trace : List IoEvent
  /-- the MODEL's own field: how many free values have been drawn (00_scope.md R11) -/
  draws : Nat
  /-- the parameters of 00_scope.md R6; no step changes them -/
  params : Config.Params
  deriving DecidableEq, Repr

/-- The synchronous exceptions, by the names of 60_exceptions.md R300. -/
inductive Exn where
  | tlbMiss
  | memViolation
  | zeroDivide
  | privViolation
  | undefinedInstruction
  | svc
  deriving DecidableEq, Repr

/-- The faults: none. Every exception the spec names is taken (60_exceptions.md R320), and wherever the spec stops the
machine it orders a refusal (00_scope.md R11). -/
inductive Fault
  deriving DecidableEq, Repr

/-- The refusals: what the spec gives no meaning (00_scope.md R11, `refuse`). All are safe: the model stops and nothing
is proved of what the hardware does there. -/
inductive Refusal where
  /-- An instruction that has no meaning yet; raised by an arm of exec only. -/
  | notModelled (mnemonic : String)
  /-- A word access or a fetch at an odd address under MISALIGNED_WORD = refuse (20_memory.md R52); raised by every
  word access. -/
  | misaligned (a : Word)
  /-- A memory access while port A2h has relocation or paging on (20_memory.md R72); raised by every memory access. -/
  | mmuOn
  /-- An OUT that sets bit 0 or 1 of port A2h (20_memory.md R72); raised by OUT. -/
  | mmuEnable
  /-- A store into E000h to FFFFh while the IPL ROM is attached (20_memory.md R61); raised by every memory write. -/
  | storeToIpl (a : Word)
  /-- A write of 0 to port A0h after the detach (20_memory.md R61); raised by OUT. -/
  | iplReattach
  /-- An I/O address above 00FFh (20_memory.md R57); raised by IN and OUT. -/
  | ioAddress (a : Word)
  /-- A 16-bit I/O access at an odd I/O address (20_memory.md R57); raised by IN and OUT. -/
  | ioOddWord (a : Word)
  /-- A defined OP byte with a reserved field value, or jump condition Dh (30_encoding.md R104); raised by the step. -/
  | reservedField (w1 : Word)
  /-- OP byte A6h or AEh under JUMP_INDR = refuse (30_encoding.md R105); raised by the step. -/
  | jumpIndr (w1 : Word)
  /-- FLAG as Rd of a flag-changing instruction (41_arith_logic.md R150, 42_shift.md R180); raised by those. -/
  | flagDestination
  /-- PUSH of the register that is SP (45_stack_return.md R241); raised by PUSH. -/
  | pushSp
  /-- POP into the register that is SP (45_stack_return.md R242); raised by POP. -/
  | popSp
  /-- An exception raised by a push or by the vector read of trap entry itself (60_exceptions.md R320). -/
  | faultDuringTrapEntry
  deriving DecidableEq, Repr

/-- Why an access or an instruction does not complete: it raises an exception, or the machine stops. -/
inductive Stop where
  | raise (x : Exn)
  | refuse (r : Refusal)
  deriving DecidableEq, Repr

/-- The result of an access: a value, or why there is none. -/
abbrev Access (α : Type) := Except Stop α

/-- The outcome of an instruction or a step. -/
abbrev Result := Host.Outcome State Fault Refusal

/-- DESIGN CHOICE (log 1): the spec gives the general registers no reset value; zero. -/
def Regs.zero : Regs :=
  { g0 := 0, g1 := 0, g2 := 0, g3 := 0, g4 := 0, g5 := 0, g6 := 0, g7 := 0, g8 := 0, g9 := 0, g10 := 0, g11 := 0, fp := 0 }

/-- FLAG after reset: P = 1, E = 0, I = 0 (10_state.md R35); V, C, S, Z zero, DESIGN CHOICE (log 2). -/
def Flag.reset : Flag :=
  { e := false, p := true, i := false, v := false, c := false, s := false, z := false }

/-- The machine after a reset under given parameters: the table of 10_state.md R35 (also 70_reset_and_hazards.md R400); pc
is RESET_PC. Where that table says "no value" or "not in source" the field is zero, and SSP is E000h, the stack pointer of
the spec's own examples: DESIGN CHOICE (log 1, 2, 19, 21). RN4020-Cmd's 0001b is what `io` reads as with nothing listed
(`ioResetByte`, Machine/Io.lean). -/
def State.resetWith (params : Config.Params) : State where
  regs := Regs.zero
  ssp := 0xE000
  usp := 0
  pc := params.resetPc
  flag := Flag.reset
  mem := []
  rom := []
  iplAttached := true
  halted := false
  pending := 0
  relocation := false
  paging := false
  base := 0
  limit := 0
  mmuCause := 0
  faultPage := 0
  tlb := Vector.replicate 8 0
  io := []
  trace := []
  draws := 0
  params := params

/-- The machine after reset, under the parameters that 00_scope.md R6 recommends. -/
def State.reset : State := State.resetWith Config.Params.default

end Sys2Proof.Machine
end

