-- ==== Sys2Proof/Machine/Flags.lean ====
section
/-! DEFINITION. FLAG as a word, its whole write, and every flag formula of the spec (10_state.md R26 to R29,
41_arith_logic.md R151 to R154, 43_jump_call.md R202 to R216). -/

namespace Sys2Proof.Machine

/-- FLAG as the 16-bit value register number Fh reads as: E*80h + P*40h + I*20h + V*08h + C*04h + S*02h + Z*01h
(10_state.md R26). -/
def Flag.toWord (f : Flag) : Word :=
  (if f.e then 0x80 else 0) ||| (if f.p then 0x40 else 0) ||| (if f.i then 0x20 else 0) |||
    (if f.v then 0x08 else 0) ||| (if f.c then 0x04 else 0) ||| (if f.s then 0x02 else 0) ||| (if f.z then 0x01 else 0)

/-- The seven defined bits of a word: `v and 00EFh` (10_state.md R29). -/
def Flag.ofWord (w : Word) : Flag :=
  { e := w.getLsbD 7, p := w.getLsbD 6, i := w.getLsbD 5, v := w.getLsbD 3, c := w.getLsbD 2, s := w.getLsbD 1,
    z := w.getLsbD 0 }

/-- `FlagWrite(v)` (10_state.md R29): all seven bits in privileged mode, only V, C, S, Z in user mode; the test uses P
as it is before the write. -/
def Flag.write (f : Flag) (w : Word) : Flag :=
  let g := Flag.ofWord w
  if f.p then g else { f with v := g.v, c := g.c, s := g.s, z := g.z }

/-- `SetZS(r)` (41_arith_logic.md R151). -/
def Flag.setZS (f : Flag) (r : Word) : Flag := { f with z := decide (r = 0), s := r.msb }

/-- `SetCV(c, v)` (41_arith_logic.md R151). -/
def Flag.setCV (f : Flag) (c v : Bool) : Flag := { f with c := c, v := v }

/-- ADD's carry out of bit 15: `t >= 2^16` (41_arith_logic.md R152). -/
def addCarry (a b : Word) : Bool := decide (2 ^ 16 ≤ a.toNat + b.toNat)

/-- ADD's signed overflow: the operands' signs agree and the result's differs (41_arith_logic.md R152). -/
def addOverflow (a b : Word) : Bool := a.msb == b.msb && (a + b).msb != a.msb

/-- SUB's and CMP's borrow: `u(a) < u(b)` (41_arith_logic.md R153). -/
def subBorrow (a b : Word) : Bool := decide (a.toNat < b.toNat)

/-- SUB's and CMP's signed overflow (41_arith_logic.md R153). -/
def subOverflow (a b : Word) : Bool := a.msb != b.msb && (a - b).msb != a.msb

/-- The jump conditions (43_jump_call.md R202 to R216). -/
def condHolds (k : Cond) (f : Flag) : Bool :=
  match k with
  | .z => f.z
  | .c => f.c
  | .m => f.s
  | .o => f.v
  | .gt => !(f.z || (f.s ^^ f.v))
  | .ge => !(f.s ^^ f.v)
  | .le => f.z || (f.s ^^ f.v)
  | .lt => f.s ^^ f.v
  | .nz => !f.z
  | .nc => !f.c
  | .nm => !f.s
  | .no => !f.v
  | .hi => !f.z && !f.c
  | .ls => f.z || f.c
  | .always => true

end Sys2Proof.Machine
end

