-- ==== Sys2Proof/Machine/Ops.lean ====
section
/-! DEFINITION. The named operations over memory and registers: byte and word access (20_memory.md), register access
(10_state.md R22, R24, R29), free values (00_scope.md R11), the stack (45_stack_return.md R240), taking an exception or an
interrupt (60_exceptions.md R307, R320) and the return from one (45_stack_return.md R246). -/

namespace Sys2Proof.Machine

/-! ### Memory as a sorted list of bytes -/

/-- The byte listed at an address, if one is. -/
def Memory.get? : Memory → Nat → Option Byte
  | [], _ => none
  | (b, w) :: rest, a => if a = b then some w else Memory.get? rest a

/-- The list with a byte at an address, addresses kept rising. -/
def Memory.put : Memory → Nat → Byte → Memory
  | [], a, v => [(a, v)]
  | (b, w) :: rest, a, v =>
    if a < b then (a, v) :: (b, w) :: rest
    else if a = b then (a, v) :: rest
    else (b, w) :: Memory.put rest a v

/-- The list without an address. -/
def Memory.erase : Memory → Nat → Memory
  | [], _ => []
  | (b, w) :: rest, a => if a = b then rest else (b, w) :: Memory.erase rest a

/-- The canonical form: addresses strictly rising and all below a bound. A listed byte is one that has been written; an
unlisted address has no value, which no byte equals, so equal memories are equal lists. -/
abbrev Memory.wf (limit : Nat) (m : Memory) : Prop :=
  (m.map Prod.fst).Pairwise (· < ·) ∧ ∀ a ∈ m.map Prod.fst, a < limit

/-! ### Bytes of the memory space (20_memory.md R60, R61) -/

/-- The first address of the IPL region (20_memory.md R60). -/
def iplBase : Nat := 0xE000

/-- Whether an address shows the IPL ROM: E000h to FFFFh while it is attached (20_memory.md R61). -/
def State.iplCovers (s : State) (a : Word) : Bool := s.iplAttached && decide (iplBase ≤ a.toNat)

/-- The byte the machine reads at an address: of the IPL ROM where it covers the address, else of the RAM. A RAM byte
that nothing has written is the power-on byte: DESIGN CHOICE (log 3). -/
def State.byteAt (s : State) (a : Word) : Byte :=
  if s.iplCovers a then (Memory.get? s.rom a.toNat).getD (Config.iplImage a.toNat)
  else (Memory.get? s.mem a.toNat).getD (Config.powerOnByte a.toNat)

/-- The word at an address, big-endian (20_memory.md R50); addresses wrap modulo 2^16 (00_scope.md R10). -/
def State.wordAt (s : State) (a : Word) : Word := wordOfBytes (s.byteAt a) (s.byteAt (a + 1))

/-- The state with a byte of RAM stored. -/
def State.storeByte (s : State) (a : Word) (v : Byte) : State := { s with mem := Memory.put s.mem a.toNat v }

/-- The state with a word of RAM stored, big-endian (20_memory.md R50). -/
def State.storeWord (s : State) (a v : Word) : State := (s.storeByte a (highByte v)).storeByte (a + 1) (lowByte v)

/-! ### Memory accesses, with their checks -/

/-- Relocation or paging is on: outside the admitted subset (20_memory.md R72). -/
def State.mmuOn (s : State) : Bool := s.relocation || s.paging

/-- The address a byte access uses (20_memory.md R53, R72). -/
def State.admitByte (s : State) (a : Word) : Access Word :=
  if s.mmuOn then .error (.refuse .mmuOn) else .ok a

/-- The address a word access or a fetch uses: even addresses as they are, odd ones by MISALIGNED_WORD (20_memory.md R52,
R72). -/
def State.admitWord (s : State) (a : Word) : Access Word :=
  if s.mmuOn then .error (.refuse .mmuOn)
  else if a.toNat % 2 = 0 then .ok a
  else match s.params.misaligned with
    | .refuse => .error (.refuse (.misaligned a))
    | .ignoreBit0 => .ok (a &&& 0xFFFE)
    | .memViolation => .error (.raise .memViolation)

/-- `MemRead(a, 1)` (00_scope.md R10). -/
def State.readByte (s : State) (a : Word) : Access Byte :=
  match s.admitByte a with
  | .ok b => .ok (s.byteAt b)
  | .error e => .error e

/-- `MemRead(a, 2)` (00_scope.md R10). -/
def State.readWord (s : State) (a : Word) : Access Word :=
  match s.admitWord a with
  | .ok b => .ok (s.wordAt b)
  | .error e => .error e

/-- `MemWrite(a, 1, v)` (00_scope.md R10); refused in the IPL region while it is attached (20_memory.md R61). -/
def State.writeByte (s : State) (a : Word) (v : Byte) : Access State :=
  match s.admitByte a with
  | .ok b => if s.iplCovers b then .error (.refuse (.storeToIpl b)) else .ok (s.storeByte b v)
  | .error e => .error e

/-- `MemWrite(a, 2, v)` (00_scope.md R10); refused in the IPL region while it is attached (20_memory.md R61). The word's
two bytes lie on the same side of E000h, since the address used is even. DESIGN CHOICE (log 45): alignment is dealt with
first, so an odd address in the attached region raises MemViolation under `mem_violation`; R52 and R61 give no order. -/
def State.writeWord (s : State) (a v : Word) : Access State :=
  match s.admitWord a with
  | .ok b => if s.iplCovers b then .error (.refuse (.storeToIpl b)) else .ok (s.storeWord b v)
  | .error e => .error e

/-! ### Registers (10_state.md R22) -/

/-- Where a register's value is held. -/
inductive Home where
  | gen (r : Gr)
  | ssp
  | usp
  | flag
  deriving DecidableEq, Repr

/-- The place a register name denotes: SP is SSP when FLAG.P = 1 and USP when FLAG.P = 0 (10_state.md R22, R24). -/
def homeOf (r : Reg) (p : Bool) : Home :=
  match r with
  | .gen g => .gen g
  | .sp => if p then .ssp else .usp
  | .usp => .usp
  | .flag => .flag

/-- A general register. -/
def Regs.get (x : Regs) (r : Gr) : Word :=
  match r with
  | .g0 => x.g0
  | .g1 => x.g1
  | .g2 => x.g2
  | .g3 => x.g3
  | .g4 => x.g4
  | .g5 => x.g5
  | .g6 => x.g6
  | .g7 => x.g7
  | .g8 => x.g8
  | .g9 => x.g9
  | .g10 => x.g10
  | .g11 => x.g11
  | .fp => x.fp

/-- The general registers with one of them set. -/
def Regs.set (x : Regs) (r : Gr) (v : Word) : Regs :=
  match r with
  | .g0 => { x with g0 := v }
  | .g1 => { x with g1 := v }
  | .g2 => { x with g2 := v }
  | .g3 => { x with g3 := v }
  | .g4 => { x with g4 := v }
  | .g5 => { x with g5 := v }
  | .g6 => { x with g6 := v }
  | .g7 => { x with g7 := v }
  | .g8 => { x with g8 := v }
  | .g9 => { x with g9 := v }
  | .g10 => { x with g10 := v }
  | .g11 => { x with g11 := v }
  | .fp => { x with fp := v }

/-- The state with FLAG replaced. -/
def State.setFlag (s : State) (f : Flag) : State := { s with flag := f }

/-- The state with SSP replaced. -/
def State.setSsp (s : State) (v : Word) : State := { s with ssp := v }

/-- The state with USP replaced. -/
def State.setUsp (s : State) (v : Word) : State := { s with usp := v }

/-- The value held at a place. -/
def State.peek (s : State) (h : Home) : Word :=
  match h with
  | .gen g => s.regs.get g
  | .ssp => s.ssp
  | .usp => s.usp
  | .flag => s.flag.toWord

/-- The state with the value at a place written; FLAG through `FlagWrite` (10_state.md R29). -/
def State.poke (s : State) (h : Home) (v : Word) : State :=
  match h with
  | .gen g => { s with regs := s.regs.set g v }
  | .ssp => s.setSsp v
  | .usp => s.setUsp v
  | .flag => s.setFlag (s.flag.write v)

/-- `x[i]` (00_scope.md R9). -/
def State.readReg (s : State) (r : Reg) : Word := s.peek (homeOf r s.flag.p)

/-- `x[i] <- v` (00_scope.md R9). -/
def State.writeReg (s : State) (r : Reg) (v : Word) : State := s.poke (homeOf r s.flag.p) v

/-- `pc <- t`. -/
def State.goto (s : State) (t : Word) : State := { s with pc := t }

/-- `SetZS(r)` on the state. -/
def State.setZS (s : State) (r : Word) : State := s.setFlag (s.flag.setZS r)

/-- `SetCV(c, v)` on the state. -/
def State.setCV (s : State) (c v : Bool) : State := s.setFlag (s.flag.setCV c v)

/-! ### Free values (00_scope.md R11) -/

/-- `DrawCV()` (41_arith_logic.md R151): C and V take the next two free bits. -/
def State.drawCV (s : State) : State :=
  { s with flag := s.flag.setCV (Config.freeBit s.draws) (Config.freeBit (s.draws + 1)), draws := s.draws + 2 }

/-- V, C, S and Z take the next four free bits (41_arith_logic.md R160, 42_shift.md R180). -/
def State.drawVCSZ (s : State) : State :=
  { s with
    flag := { s.flag with
      v := Config.freeBit s.draws
      c := Config.freeBit (s.draws + 1)
      s := Config.freeBit (s.draws + 2)
      z := Config.freeBit (s.draws + 3) }
    draws := s.draws + 4 }

/-- A register takes the next free word (42_shift.md R180: "Rd receives a free draw"). -/
def State.drawReg (s : State) (r : Reg) : State :=
  { s.writeReg r (Config.freeWord s.draws) with draws := s.draws + 1 }

/-! ### The stack (45_stack_return.md R240) -/

/-- `Push(v)`: SP is decremented by 2 and the word is stored there; a write that stops leaves SP unchanged. -/
def State.push (s : State) (v : Word) : Access State :=
  let sp := s.readReg .sp - 2
  match s.writeWord sp v with
  | .ok t => .ok (t.writeReg .sp sp)
  | .error e => .error e

/-- `Pop()`: the word at SP, and the state with SP incremented by 2. -/
def State.pop (s : State) : Access (Word × State) :=
  let sp := s.readReg .sp
  match s.readWord sp with
  | .ok v => .ok (v, s.writeReg .sp (sp + 2))
  | .error e => .error e

/-! ### Taking an exception or an interrupt -/

/-- The address of entry n of the vector table (60_exceptions.md R300). -/
def vectorAddress (n : Nat) : Word := BitVec.ofNat 16 (0xFFE0 + 2 * n)

/-- The vector number of an exception (60_exceptions.md R300). -/
def Exn.vector : Exn → Nat
  | .tlbMiss => 10
  | .memViolation => 11
  | .zeroDivide => 12
  | .privViolation => 13
  | .undefinedInstruction => 14
  | .svc => 15

/-- FLAG as trap entry leaves it: P set, E cleared, the rest unchanged (60_exceptions.md R320). -/
def Flag.enterTrap (f : Flag) : Flag := { f with p := true, e := false }

/-- The accesses of trap entry in their order: push the saved pc, push the old FLAG, read the vector
(60_exceptions.md R320). -/
def State.trapFrame (s : State) (n : Nat) (savedPc : Word) : Access State :=
  match (s.setFlag s.flag.enterTrap).push savedPc with
  | .error e => .error e
  | .ok t =>
    match t.push s.flag.toWord with
    | .error e => .error e
    | .ok u =>
      match u.readWord (vectorAddress n) with
      | .error e => .error e
      | .ok handler => .ok (u.goto handler)

/-- `TrapEntry(n, saved_pc)` (60_exceptions.md R320). An exception raised by the entry itself is refused. -/
def State.trapEntry (s : State) (n : Nat) (savedPc : Word) : Result :=
  match s.trapFrame n savedPc with
  | .ok t => .next t
  | .error (.raise _) => .refused .faultDuringTrapEntry
  | .error (.refuse r) => .refused r

/-- Which pc an exception saves: for SVC the next instruction's, for the others the parameter FAULT_SAVED_PC
(60_exceptions.md R307). -/
def Exn.savedPc (x : Exn) (params : Config.Params) : Config.SavedPc :=
  match x with
  | .tlbMiss => params.tlbMissPc
  | .memViolation => params.memViolationPc
  | .zeroDivide => params.zeroDividePc
  | .privViolation => params.privViolationPc
  | .undefinedInstruction => params.undefinedPc
  | .svc => .next

/-- What an exception records besides its frame: MemViolation the cause register, TlbMiss the page number register
(60_exceptions.md R301, R302); the bits are not in the source, so they are free words (log 19). -/
def State.recordCause (s : State) (x : Exn) : State :=
  match x with
  | .memViolation => { s with mmuCause := Config.freeWord s.draws, draws := s.draws + 1 }
  | .tlbMiss => { s with faultPage := Config.freeWord s.draws, draws := s.draws + 1 }
  | _ => s

/-- `raise X` (00_scope.md R11): taking a synchronous exception from state `s`, whose pc is the instruction's address;
`npc` is the address after the instruction. The one operation by which every instruction takes an exception. -/
def State.raise (s : State) (x : Exn) (npc : Word) : Result :=
  let t := s.recordCause x
  match x.savedPc s.params with
  | .this => t.trapEntry x.vector s.pc
  | .next => t.trapEntry x.vector npc
  | .any => ({ t with draws := t.draws + 1 } : State).trapEntry x.vector (Config.freeWord t.draws)

/-- The outcome of an instruction from what its accesses answer: an instruction that raises has changed nothing
(40_no_ld_st.md R130(c), 60_exceptions.md R321). -/
def State.conclude (s : State) (npc : Word) (r : Access State) : Result :=
  match r with
  | .ok t => .next t
  | .error (.raise x) => s.raise x npc
  | .error (.refuse r) => .refused r

/-! ### The return from an exception -/

/-- The accesses and writes of RETI (45_stack_return.md R246): FLAG, then pc, from the stack that P selects before the
instruction; that stack pointer rises by 4. -/
def State.trapReturn (s : State) : Access State :=
  let sp := s.readReg .sp
  match s.readWord sp with
  | .error e => .error e
  | .ok f =>
    match s.readWord (sp + 2) with
    | .error e => .error e
    | .ok t => .ok (((s.writeReg .sp (sp + 4)).writeReg .flag f).goto t)

end Sys2Proof.Machine
end

