-- ==== Sys2Proof/Machine/Operands.lean ====
section
/-! DEFINITION. Operand evaluation (30_encoding.md R97): the address of a form, the value of a form, and how long the
instruction is. -/

namespace Sys2Proof.Machine

/-- `Addr(mode)` (30_encoding.md R97), modulo 2^16. -/
def State.addr (s : State) (m : MemEa) : Word :=
  match m with
  | .drct dsp => dsp
  | .index dsp rx => dsp + s.readReg rx
  | .fpRlt dsp4 => BitVec.ofInt 16 dsp4 + s.readReg (.gen .fp)
  | .indr rx => s.readReg rx
  | .bIndr rx => s.readReg rx

/-- An access through the form is a byte access: mode 7 only (20_memory.md R54). -/
def isByteForm (m : MemEa) : Bool :=
  match m with
  | .bIndr _ => true
  | _ => false

/-- The memory operand of a form: a word, or in mode 7 a byte zero-extended (30_encoding.md R97). -/
def State.memValue (s : State) (m : MemEa) : Access Word :=
  if isByteForm m then
    match s.readByte (s.addr m) with
    | .ok b => .ok (b.setWidth 16)
    | .error e => .error e
  else s.readWord (s.addr m)

/-- `Val(mode)` (30_encoding.md R97). -/
def State.value (s : State) (ea : Ea) : Access Word :=
  match ea with
  | .mem m => s.memValue m
  | .imm w => .ok w
  | .reg rs => .ok (s.readReg rs)
  | .imm4 n => .ok (BitVec.ofInt 16 n)

/-- The length in bytes of an instruction with an address form: two words in modes 0 and 1 (30_encoding.md R91). -/
def memEaBytes (m : MemEa) : Word :=
  match m with
  | .drct _ => 4
  | .index _ _ => 4
  | _ => 2

/-- The length in bytes of an instruction with an operand: two words in modes 0, 1 and 2 (30_encoding.md R91). -/
def eaBytes (ea : Ea) : Word :=
  match ea with
  | .mem m => memEaBytes m
  | .imm _ => 4
  | _ => 2

/-- `npc` of an instruction with an operand (00_scope.md R12). -/
def State.npcEa (s : State) (ea : Ea) : Word := s.pc + eaBytes ea

/-- `npc` of an instruction with an address form. -/
def State.npcMem (s : State) (m : MemEa) : Word := s.pc + memEaBytes m

/-- `npc` of a one-word instruction. -/
def State.npcOne (s : State) : Word := s.pc + 2

end Sys2Proof.Machine
end

