-- ==== Sys2Proof/Machine/Arith.lean ====
section
/-! DEFINITION. Arithmetic and logic (41_arith_logic.md): ADD, SUB, CMP, AND, OR, XOR, ADDS, MUL, DIV, MOD. -/

namespace Sys2Proof.Machine

/-- What the two-operand instructions have in common (41_arith_logic.md R150, 42_shift.md R180): Rd = Fh is refused; the
second operand is read, which may raise; `act` writes register and flags from Rd's old value and the operand; pc advances. -/
def State.operate (s : State) (rd : Reg) (ea : Ea) (act : State → Word → Word → State) : Result :=
  if rd = .flag then .refused .flagDestination
  else match s.value ea with
    | .ok b => .next ((act s (s.readReg rd) b).goto (s.npcEa ea))
    | .error e => s.conclude (s.npcEa ea) (.error e)

/-- A result that sets Z and S and draws C and V (41_arith_logic.md R151). -/
def State.resultDrawn (s : State) (rd : Reg) (r : Word) : State := ((s.writeReg rd r).setZS r).drawCV

/-- ADD (41_arith_logic.md R152). -/
def State.addAct (rd : Reg) (s : State) (a b : Word) : State :=
  ((s.writeReg rd (a + b)).setZS (a + b)).setCV (addCarry a b) (addOverflow a b)

/-- SUB (41_arith_logic.md R153). -/
def State.subAct (rd : Reg) (s : State) (a b : Word) : State :=
  ((s.writeReg rd (a - b)).setZS (a - b)).setCV (subBorrow a b) (subOverflow a b)

/-- CMP (41_arith_logic.md R154): SUB without the write of Rd. -/
def State.cmpAct (s : State) (a b : Word) : State := (s.setZS (a - b)).setCV (subBorrow a b) (subOverflow a b)

/-- ADDS's result (41_arith_logic.md R158): `(u(a) + 2 * u(b)) mod 2^16`. -/
def addScaled (a b : Word) : Word := BitVec.ofNat 16 (a.toNat + 2 * b.toNat)

/-- MUL's result (41_arith_logic.md R159): `(u(a) * u(b)) mod 2^16`. -/
def product (a b : Word) : Word := BitVec.ofNat 16 (a.toNat * b.toNat)

/-- DIV's result for a divisor other than 0 (41_arith_logic.md R160): the quotient where both operands are in 0000h to
7FFFh, the configuration function otherwise. -/
def quotient (a b : Word) : Word :=
  if !a.msb && !b.msb then BitVec.ofNat 16 (a.toNat / b.toNat) else Config.divFn a b

/-- MOD's result for a divisor other than 0 (41_arith_logic.md R161). -/
def remainder (a b : Word) : Word :=
  if !a.msb && !b.msb then BitVec.ofNat 16 (a.toNat % b.toNat) else Config.modFn a b

/-- DIV and MOD (41_arith_logic.md R160, R161): a divisor of 0000h raises `ZeroDivide` with Rd unchanged and V, C, S, Z
drawn before FLAG is saved. -/
def State.divide (s : State) (rd : Reg) (ea : Ea) (result : Word → Word → Word) : Result :=
  if rd = .flag then .refused .flagDestination
  else match s.value ea with
    | .ok b =>
      if b = 0 then s.drawVCSZ.raise .zeroDivide (s.npcEa ea)
      else .next ((s.resultDrawn rd (result (s.readReg rd) b)).goto (s.npcEa ea))
    | .error e => s.conclude (s.npcEa ea) (.error e)

/-- ADD, mode 0 (41_arith_logic.md R152). -/
def execAddDrct (rd : Reg) (dsp : Word) (s : State) : Result := s.operate rd (.mem (.drct dsp)) (State.addAct rd)

/-- ADD, mode 1 (41_arith_logic.md R152). -/
def execAddIndex (rd rx : Reg) (dsp : Word) (s : State) : Result := s.operate rd (.mem (.index dsp rx)) (State.addAct rd)

/-- ADD, mode 2 (41_arith_logic.md R152). -/
def execAddImm (rd : Reg) (imm : Word) (s : State) : Result := s.operate rd (.imm imm) (State.addAct rd)

/-- ADD, mode 3 (41_arith_logic.md R152). -/
def execAddFpRlt (rd : Reg) (dsp4 : Int) (s : State) : Result := s.operate rd (.mem (.fpRlt dsp4)) (State.addAct rd)

/-- ADD, mode 4 (41_arith_logic.md R152). -/
def execAddReg (rd rs : Reg) (s : State) : Result := s.operate rd (.reg rs) (State.addAct rd)

/-- ADD, mode 5 (41_arith_logic.md R152). -/
def execAddImm4 (rd : Reg) (imm4 : Int) (s : State) : Result := s.operate rd (.imm4 imm4) (State.addAct rd)

/-- ADD, mode 6 (41_arith_logic.md R152). -/
def execAddIndr (rd rx : Reg) (s : State) : Result := s.operate rd (.mem (.indr rx)) (State.addAct rd)

/-- ADD, mode 7 (41_arith_logic.md R152). -/
def execAddBIndr (rd rx : Reg) (s : State) : Result := s.operate rd (.mem (.bIndr rx)) (State.addAct rd)

/-- SUB, mode 0 (41_arith_logic.md R153). -/
def execSubDrct (rd : Reg) (dsp : Word) (s : State) : Result := s.operate rd (.mem (.drct dsp)) (State.subAct rd)

/-- SUB, mode 1 (41_arith_logic.md R153). -/
def execSubIndex (rd rx : Reg) (dsp : Word) (s : State) : Result := s.operate rd (.mem (.index dsp rx)) (State.subAct rd)

/-- SUB, mode 2 (41_arith_logic.md R153). -/
def execSubImm (rd : Reg) (imm : Word) (s : State) : Result := s.operate rd (.imm imm) (State.subAct rd)

/-- SUB, mode 3 (41_arith_logic.md R153). -/
def execSubFpRlt (rd : Reg) (dsp4 : Int) (s : State) : Result := s.operate rd (.mem (.fpRlt dsp4)) (State.subAct rd)

/-- SUB, mode 4 (41_arith_logic.md R153). -/
def execSubReg (rd rs : Reg) (s : State) : Result := s.operate rd (.reg rs) (State.subAct rd)

/-- SUB, mode 5 (41_arith_logic.md R153). -/
def execSubImm4 (rd : Reg) (imm4 : Int) (s : State) : Result := s.operate rd (.imm4 imm4) (State.subAct rd)

/-- SUB, mode 6 (41_arith_logic.md R153). -/
def execSubIndr (rd rx : Reg) (s : State) : Result := s.operate rd (.mem (.indr rx)) (State.subAct rd)

/-- SUB, mode 7 (41_arith_logic.md R153). -/
def execSubBIndr (rd rx : Reg) (s : State) : Result := s.operate rd (.mem (.bIndr rx)) (State.subAct rd)

/-- CMP, mode 0 (41_arith_logic.md R154). -/
def execCmpDrct (rd : Reg) (dsp : Word) (s : State) : Result := s.operate rd (.mem (.drct dsp)) State.cmpAct

/-- CMP, mode 1 (41_arith_logic.md R154). -/
def execCmpIndex (rd rx : Reg) (dsp : Word) (s : State) : Result := s.operate rd (.mem (.index dsp rx)) State.cmpAct

/-- CMP, mode 2 (41_arith_logic.md R154). -/
def execCmpImm (rd : Reg) (imm : Word) (s : State) : Result := s.operate rd (.imm imm) State.cmpAct

/-- CMP, mode 3 (41_arith_logic.md R154). -/
def execCmpFpRlt (rd : Reg) (dsp4 : Int) (s : State) : Result := s.operate rd (.mem (.fpRlt dsp4)) State.cmpAct

/-- CMP, mode 4 (41_arith_logic.md R154). -/
def execCmpReg (rd rs : Reg) (s : State) : Result := s.operate rd (.reg rs) State.cmpAct

/-- CMP, mode 5 (41_arith_logic.md R154). -/
def execCmpImm4 (rd : Reg) (imm4 : Int) (s : State) : Result := s.operate rd (.imm4 imm4) State.cmpAct

/-- CMP, mode 6 (41_arith_logic.md R154). -/
def execCmpIndr (rd rx : Reg) (s : State) : Result := s.operate rd (.mem (.indr rx)) State.cmpAct

/-- CMP, mode 7 (41_arith_logic.md R154). -/
def execCmpBIndr (rd rx : Reg) (s : State) : Result := s.operate rd (.mem (.bIndr rx)) State.cmpAct

/-- AND, mode 0 (41_arith_logic.md R155). -/
def execAndDrct (rd : Reg) (dsp : Word) (s : State) : Result := s.operate rd (.mem (.drct dsp)) fun t a b => t.resultDrawn rd (a &&& b)

/-- AND, mode 1 (41_arith_logic.md R155). -/
def execAndIndex (rd rx : Reg) (dsp : Word) (s : State) : Result := s.operate rd (.mem (.index dsp rx)) fun t a b => t.resultDrawn rd (a &&& b)

/-- AND, mode 2 (41_arith_logic.md R155). -/
def execAndImm (rd : Reg) (imm : Word) (s : State) : Result := s.operate rd (.imm imm) fun t a b => t.resultDrawn rd (a &&& b)

/-- AND, mode 3 (41_arith_logic.md R155). -/
def execAndFpRlt (rd : Reg) (dsp4 : Int) (s : State) : Result := s.operate rd (.mem (.fpRlt dsp4)) fun t a b => t.resultDrawn rd (a &&& b)

/-- AND, mode 4 (41_arith_logic.md R155). -/
def execAndReg (rd rs : Reg) (s : State) : Result := s.operate rd (.reg rs) fun t a b => t.resultDrawn rd (a &&& b)

/-- AND, mode 5 (41_arith_logic.md R155). -/
def execAndImm4 (rd : Reg) (imm4 : Int) (s : State) : Result := s.operate rd (.imm4 imm4) fun t a b => t.resultDrawn rd (a &&& b)

/-- AND, mode 6 (41_arith_logic.md R155). -/
def execAndIndr (rd rx : Reg) (s : State) : Result := s.operate rd (.mem (.indr rx)) fun t a b => t.resultDrawn rd (a &&& b)

/-- AND, mode 7 (41_arith_logic.md R155). -/
def execAndBIndr (rd rx : Reg) (s : State) : Result := s.operate rd (.mem (.bIndr rx)) fun t a b => t.resultDrawn rd (a &&& b)

/-- OR, mode 0 (41_arith_logic.md R156). -/
def execOrDrct (rd : Reg) (dsp : Word) (s : State) : Result := s.operate rd (.mem (.drct dsp)) fun t a b => t.resultDrawn rd (a ||| b)

/-- OR, mode 1 (41_arith_logic.md R156). -/
def execOrIndex (rd rx : Reg) (dsp : Word) (s : State) : Result := s.operate rd (.mem (.index dsp rx)) fun t a b => t.resultDrawn rd (a ||| b)

/-- OR, mode 2 (41_arith_logic.md R156). -/
def execOrImm (rd : Reg) (imm : Word) (s : State) : Result := s.operate rd (.imm imm) fun t a b => t.resultDrawn rd (a ||| b)

/-- OR, mode 3 (41_arith_logic.md R156). -/
def execOrFpRlt (rd : Reg) (dsp4 : Int) (s : State) : Result := s.operate rd (.mem (.fpRlt dsp4)) fun t a b => t.resultDrawn rd (a ||| b)

/-- OR, mode 4 (41_arith_logic.md R156). -/
def execOrReg (rd rs : Reg) (s : State) : Result := s.operate rd (.reg rs) fun t a b => t.resultDrawn rd (a ||| b)

/-- OR, mode 5 (41_arith_logic.md R156). -/
def execOrImm4 (rd : Reg) (imm4 : Int) (s : State) : Result := s.operate rd (.imm4 imm4) fun t a b => t.resultDrawn rd (a ||| b)

/-- OR, mode 6 (41_arith_logic.md R156). -/
def execOrIndr (rd rx : Reg) (s : State) : Result := s.operate rd (.mem (.indr rx)) fun t a b => t.resultDrawn rd (a ||| b)

/-- OR, mode 7 (41_arith_logic.md R156). -/
def execOrBIndr (rd rx : Reg) (s : State) : Result := s.operate rd (.mem (.bIndr rx)) fun t a b => t.resultDrawn rd (a ||| b)

/-- XOR, mode 0 (41_arith_logic.md R157). -/
def execXorDrct (rd : Reg) (dsp : Word) (s : State) : Result := s.operate rd (.mem (.drct dsp)) fun t a b => t.resultDrawn rd (a ^^^ b)

/-- XOR, mode 1 (41_arith_logic.md R157). -/
def execXorIndex (rd rx : Reg) (dsp : Word) (s : State) : Result := s.operate rd (.mem (.index dsp rx)) fun t a b => t.resultDrawn rd (a ^^^ b)

/-- XOR, mode 2 (41_arith_logic.md R157). -/
def execXorImm (rd : Reg) (imm : Word) (s : State) : Result := s.operate rd (.imm imm) fun t a b => t.resultDrawn rd (a ^^^ b)

/-- XOR, mode 3 (41_arith_logic.md R157). -/
def execXorFpRlt (rd : Reg) (dsp4 : Int) (s : State) : Result := s.operate rd (.mem (.fpRlt dsp4)) fun t a b => t.resultDrawn rd (a ^^^ b)

/-- XOR, mode 4 (41_arith_logic.md R157). -/
def execXorReg (rd rs : Reg) (s : State) : Result := s.operate rd (.reg rs) fun t a b => t.resultDrawn rd (a ^^^ b)

/-- XOR, mode 5 (41_arith_logic.md R157). -/
def execXorImm4 (rd : Reg) (imm4 : Int) (s : State) : Result := s.operate rd (.imm4 imm4) fun t a b => t.resultDrawn rd (a ^^^ b)

/-- XOR, mode 6 (41_arith_logic.md R157). -/
def execXorIndr (rd rx : Reg) (s : State) : Result := s.operate rd (.mem (.indr rx)) fun t a b => t.resultDrawn rd (a ^^^ b)

/-- XOR, mode 7 (41_arith_logic.md R157). -/
def execXorBIndr (rd rx : Reg) (s : State) : Result := s.operate rd (.mem (.bIndr rx)) fun t a b => t.resultDrawn rd (a ^^^ b)

/-- ADDS, mode 0 (41_arith_logic.md R158). -/
def execAddsDrct (rd : Reg) (dsp : Word) (s : State) : Result := s.operate rd (.mem (.drct dsp)) fun t a b => t.resultDrawn rd (addScaled a b)

/-- ADDS, mode 1 (41_arith_logic.md R158). -/
def execAddsIndex (rd rx : Reg) (dsp : Word) (s : State) : Result := s.operate rd (.mem (.index dsp rx)) fun t a b => t.resultDrawn rd (addScaled a b)

/-- ADDS, mode 2 (41_arith_logic.md R158). -/
def execAddsImm (rd : Reg) (imm : Word) (s : State) : Result := s.operate rd (.imm imm) fun t a b => t.resultDrawn rd (addScaled a b)

/-- ADDS, mode 3 (41_arith_logic.md R158). -/
def execAddsFpRlt (rd : Reg) (dsp4 : Int) (s : State) : Result := s.operate rd (.mem (.fpRlt dsp4)) fun t a b => t.resultDrawn rd (addScaled a b)

/-- ADDS, mode 4 (41_arith_logic.md R158). -/
def execAddsReg (rd rs : Reg) (s : State) : Result := s.operate rd (.reg rs) fun t a b => t.resultDrawn rd (addScaled a b)

/-- ADDS, mode 5 (41_arith_logic.md R158). -/
def execAddsImm4 (rd : Reg) (imm4 : Int) (s : State) : Result := s.operate rd (.imm4 imm4) fun t a b => t.resultDrawn rd (addScaled a b)

/-- ADDS, mode 6 (41_arith_logic.md R158). -/
def execAddsIndr (rd rx : Reg) (s : State) : Result := s.operate rd (.mem (.indr rx)) fun t a b => t.resultDrawn rd (addScaled a b)

/-- ADDS, mode 7 (41_arith_logic.md R158). -/
def execAddsBIndr (rd rx : Reg) (s : State) : Result := s.operate rd (.mem (.bIndr rx)) fun t a b => t.resultDrawn rd (addScaled a b)

/-- MUL, mode 0 (41_arith_logic.md R159). -/
def execMulDrct (rd : Reg) (dsp : Word) (s : State) : Result := s.operate rd (.mem (.drct dsp)) fun t a b => t.resultDrawn rd (product a b)

/-- MUL, mode 1 (41_arith_logic.md R159). -/
def execMulIndex (rd rx : Reg) (dsp : Word) (s : State) : Result := s.operate rd (.mem (.index dsp rx)) fun t a b => t.resultDrawn rd (product a b)

/-- MUL, mode 2 (41_arith_logic.md R159). -/
def execMulImm (rd : Reg) (imm : Word) (s : State) : Result := s.operate rd (.imm imm) fun t a b => t.resultDrawn rd (product a b)

/-- MUL, mode 3 (41_arith_logic.md R159). -/
def execMulFpRlt (rd : Reg) (dsp4 : Int) (s : State) : Result := s.operate rd (.mem (.fpRlt dsp4)) fun t a b => t.resultDrawn rd (product a b)

/-- MUL, mode 4 (41_arith_logic.md R159). -/
def execMulReg (rd rs : Reg) (s : State) : Result := s.operate rd (.reg rs) fun t a b => t.resultDrawn rd (product a b)

/-- MUL, mode 5 (41_arith_logic.md R159). -/
def execMulImm4 (rd : Reg) (imm4 : Int) (s : State) : Result := s.operate rd (.imm4 imm4) fun t a b => t.resultDrawn rd (product a b)

/-- MUL, mode 6 (41_arith_logic.md R159). -/
def execMulIndr (rd rx : Reg) (s : State) : Result := s.operate rd (.mem (.indr rx)) fun t a b => t.resultDrawn rd (product a b)

/-- MUL, mode 7 (41_arith_logic.md R159). -/
def execMulBIndr (rd rx : Reg) (s : State) : Result := s.operate rd (.mem (.bIndr rx)) fun t a b => t.resultDrawn rd (product a b)

/-- DIV, mode 0 (41_arith_logic.md R160). -/
def execDivDrct (rd : Reg) (dsp : Word) (s : State) : Result := s.divide rd (.mem (.drct dsp)) quotient

/-- DIV, mode 1 (41_arith_logic.md R160). -/
def execDivIndex (rd rx : Reg) (dsp : Word) (s : State) : Result := s.divide rd (.mem (.index dsp rx)) quotient

/-- DIV, mode 2 (41_arith_logic.md R160). -/
def execDivImm (rd : Reg) (imm : Word) (s : State) : Result := s.divide rd (.imm imm) quotient

/-- DIV, mode 3 (41_arith_logic.md R160). -/
def execDivFpRlt (rd : Reg) (dsp4 : Int) (s : State) : Result := s.divide rd (.mem (.fpRlt dsp4)) quotient

/-- DIV, mode 4 (41_arith_logic.md R160). -/
def execDivReg (rd rs : Reg) (s : State) : Result := s.divide rd (.reg rs) quotient

/-- DIV, mode 5 (41_arith_logic.md R160). -/
def execDivImm4 (rd : Reg) (imm4 : Int) (s : State) : Result := s.divide rd (.imm4 imm4) quotient

/-- DIV, mode 6 (41_arith_logic.md R160). -/
def execDivIndr (rd rx : Reg) (s : State) : Result := s.divide rd (.mem (.indr rx)) quotient

/-- DIV, mode 7 (41_arith_logic.md R160). -/
def execDivBIndr (rd rx : Reg) (s : State) : Result := s.divide rd (.mem (.bIndr rx)) quotient

/-- MOD, mode 0 (41_arith_logic.md R161). -/
def execModDrct (rd : Reg) (dsp : Word) (s : State) : Result := s.divide rd (.mem (.drct dsp)) remainder

/-- MOD, mode 1 (41_arith_logic.md R161). -/
def execModIndex (rd rx : Reg) (dsp : Word) (s : State) : Result := s.divide rd (.mem (.index dsp rx)) remainder

/-- MOD, mode 2 (41_arith_logic.md R161). -/
def execModImm (rd : Reg) (imm : Word) (s : State) : Result := s.divide rd (.imm imm) remainder

/-- MOD, mode 3 (41_arith_logic.md R161). -/
def execModFpRlt (rd : Reg) (dsp4 : Int) (s : State) : Result := s.divide rd (.mem (.fpRlt dsp4)) remainder

/-- MOD, mode 4 (41_arith_logic.md R161). -/
def execModReg (rd rs : Reg) (s : State) : Result := s.divide rd (.reg rs) remainder

/-- MOD, mode 5 (41_arith_logic.md R161). -/
def execModImm4 (rd : Reg) (imm4 : Int) (s : State) : Result := s.divide rd (.imm4 imm4) remainder

/-- MOD, mode 6 (41_arith_logic.md R161). -/
def execModIndr (rd rx : Reg) (s : State) : Result := s.divide rd (.mem (.indr rx)) remainder

/-- MOD, mode 7 (41_arith_logic.md R161). -/
def execModBIndr (rd rx : Reg) (s : State) : Result := s.divide rd (.mem (.bIndr rx)) remainder

end Sys2Proof.Machine
end

