-- ==== Sys2Proof/Machine/Io.lean ====
section
/-! DEFINITION. The I/O space and its ports (20_memory.md R57, R70 to R72; 60_exceptions.md R350 to R362), IN and OUT
(44_in_out.md). A port's behaviour is its device's and is out of scope (00_scope.md R4(a)): an IN takes a free word as the
device's answer, an OUT is kept in the register it writes and recorded. -/

namespace Sys2Proof.Machine

/-- What a byte of the I/O space is. -/
inductive PortByte where
  /-- "00H": reads zero and ignores writes (20_memory.md R57) -/
  | zero
  /-- free or not listed: reads as a free draw, a write has no effect (20_memory.md R57, R63) -/
  | free
  /-- a device register: the bits an IN can find set, and whether an OUT reaches it (44_in_out.md R232, R233) -/
  | device (readable : Byte) (writable : Bool)
  /-- bits 23 to 16, 15 to 8 and 7 to 0 of TLB[n] (20_memory.md R70, R71) -/
  | tlbPage (n : Nat)
  | tlbHigh (n : Nat)
  | tlbLow (n : Nat)
  /-- port A0h, b0 = detach IPL (20_memory.md R61) -/
  | iplDetach
  /-- port A2h, b0 = relocation, b1 = paging (20_memory.md R72) -/
  | mmuControl
  /-- port A4h: base register on a write, cause on a read; its high and its low byte -/
  | baseHigh
  | baseLow
  /-- port A6h: limit register on a write, page number on a read -/
  | limitHigh
  | limitLow
  /-- port A8h, TLB Clear (20_memory.md R84) -/
  | tlbClear
  deriving DecidableEq, Repr

/-- The device byte of an odd port address below 3Ah (60_exceptions.md R350, R352 to R356): the status registers read 0
where their layout prints 0, the rows R356 prints "00H" on a read read 0; the mode register is IN only and port 30h has no
write side. -/
def deviceByte (a : Nat) : PortByte :=
  match a with
  | 0x0B => .device 0xC0 true
  | 0x0F => .device 0xC0 true
  | 0x11 => .device 0xC1 true
  | 0x1F => .device 0x07 false
  | 0x2B => .device 0xC0 true
  | 0x2D => .device 0x0F true
  | 0x31 => .device 0xFF false
  | 0x33 => .device 0x00 true
  | 0x35 => .device 0x00 true
  | _ => .device 0xFF true

/-- The bytes of the port block labelled MMU from A0h to A9h (20_memory.md R70). -/
def mmuByte (a : Nat) : PortByte :=
  match a with
  | 0xA1 => .iplDetach
  | 0xA3 => .mmuControl
  | 0xA4 => .baseHigh
  | 0xA5 => .baseLow
  | 0xA6 => .limitHigh
  | 0xA7 => .limitLow
  | 0xA9 => .tlbClear
  | _ => .zero

/-- The byte of the TLB ports 80h to 9Fh (20_memory.md R70): a zero, PAGE, and the two bytes of the lower half. -/
def tlbByte (a : Nat) : PortByte :=
  match a % 4 with
  | 0 => .zero
  | 1 => .tlbPage ((a - 0x80) / 4)
  | 2 => .tlbHigh ((a - 0x80) / 4)
  | _ => .tlbLow ((a - 0x80) / 4)

/-- TaC's own console, F8h to FFh (60_exceptions.md R362). -/
def consoleByte (a : Nat) : PortByte :=
  match a with
  | 0xF8 => .device 0xFF true
  | 0xF9 => .device 0xFF true
  | 0xFA => .device 0xFF false
  | 0xFB => .device 0xFF false
  | 0xFD => .device 0x1F false
  | 0xFF => .device 0x0F false
  | _ => .zero

/-- The I/O map, byte by byte (60_exceptions.md R350). The 16-bit ports below 3Ah are the timers (00h to 07h) and the
microSD addresses (12h to 17h). -/
def portByte (a : Nat) : PortByte :=
  if a < 0x08 || (0x12 ≤ a && a < 0x18) then .device 0xFF true
  else if a < 0x3A then (if a % 2 = 0 || a = 0x39 then .zero else deviceByte a)
  else if a < 0x80 then .free
  else if a < 0xA0 then tlbByte a
  else if a < 0xAA then mmuByte a
  else if a < 0xF8 then .free
  else consoleByte a

/-! ### The device registers an OUT writes -/

/-- What a device register holds after reset: RN4020-Cmd 0001b (10_state.md R35); the others zero, DESIGN CHOICE (log 21). -/
def ioResetByte (a : Nat) : Byte := if a = 0x2D then 0x01 else 0x00

/-- The device register at a port byte. -/
def State.ioReg (s : State) (a : Nat) : Byte := (Memory.get? s.io a).getD (ioResetByte a)

/-- The state with a device register written; a register at its reset value is not listed. -/
def State.setIoReg (s : State) (a : Nat) (v : Byte) : State :=
  { s with io := if v = ioResetByte a then Memory.erase s.io a else Memory.put s.io a v }

/-- The canonical form of the device registers: a sorted list that does not list a register at its reset value. -/
abbrev ioWf (m : Memory) : Prop := Memory.wf 256 m ∧ ∀ c ∈ m, c.2 ≠ ioResetByte c.1

/-- A 16-bit device register. -/
def State.ioRegWord (s : State) (a : Nat) : Word := wordOfBytes (s.ioReg a) (s.ioReg (a + 1))

/-- Timer0's register at port 00h and its control word at 02h (60_exceptions.md R351). -/
def State.timer0Out (s : State) : Word := s.ioRegWord 0x00
def State.timer0Ctrl (s : State) : Word := s.ioRegWord 0x02
/-- Timer1's register at port 04h and its control word at 06h (60_exceptions.md R351). -/
def State.timer1Out (s : State) : Word := s.ioRegWord 0x04
def State.timer1Ctrl (s : State) : Word := s.ioRegWord 0x06
/-- The serial devices (60_exceptions.md R352). -/
def State.ft232rlData (s : State) : Byte := s.ioReg 0x09
def State.ft232rlCtrl (s : State) : Byte := s.ioReg 0x0B
def State.tecData (s : State) : Byte := s.ioReg 0x0D
def State.tecCtrl (s : State) : Byte := s.ioReg 0x0F
def State.rn4020Data (s : State) : Byte := s.ioReg 0x29
def State.rn4020Ctrl (s : State) : Byte := s.ioReg 0x2B
/-- The microSD controller (60_exceptions.md R353). -/
def State.usdCtrl (s : State) : Byte := s.ioReg 0x11
def State.usdMemAddr (s : State) : Word := s.ioRegWord 0x12
def State.usdBlkAddrH (s : State) : Word := s.ioRegWord 0x14
def State.usdBlkAddrL (s : State) : Word := s.ioRegWord 0x16
/-- I/O port and others (60_exceptions.md R354). -/
def State.ioPort (s : State) : Byte := s.ioReg 0x19
def State.adcReference (s : State) : Byte := s.ioReg 0x1B
def State.outputPortHi (s : State) : Byte := s.ioReg 0x1D
def State.spiData (s : State) : Byte := s.ioReg 0x21
def State.spiSclk (s : State) : Byte := s.ioReg 0x23
def State.pioMask (s : State) : Byte := s.ioReg 0x25
def State.pioXor (s : State) : Byte := s.ioReg 0x27
/-- RN4020-Cmd and RN4020-RAM (60_exceptions.md R355). -/
def State.rn4020Cmd (s : State) : Byte := s.ioReg 0x2D
def State.rn4020Ram (s : State) : Byte := s.ioReg 0x2F
/-- The TeC console's data switches, function switches and control (60_exceptions.md R356). -/
def State.tecDsw (s : State) : Byte := s.ioReg 0x33
def State.tecFnc (s : State) : Byte := s.ioReg 0x35
def State.tecCtl (s : State) : Byte := s.ioReg 0x37
/-- The register of TaC's own console that an OUT to F8h writes (60_exceptions.md R362). -/
def State.consoleOut (s : State) : Word := s.ioRegWord 0xF8

/-- A reset of a running machine (70_reset_and_hazards.md R400): everything as after reset under the machine's own
parameters, but for RN4020-RAM, "an 8-bit register not affected by reset" (60_exceptions.md R355), and for what is no state
of the machine's: the bytes of its IPL_IMAGE, the recorded events, and the count of the free values already drawn (log 36). -/
def State.afterReset (s : State) : State :=
  ({ State.resetWith s.params with rom := s.rom, trace := s.trace, draws := s.draws } : State).setIoReg 0x2F s.rn4020Ram

/-! ### TLB entries (20_memory.md R71) -/

/-- TLB[n]. -/
def State.tlbEntry (s : State) (n : Nat) : BitVec 24 := s.tlb.toList.getD n 0

/-- The state with TLB[n] written. -/
def State.setTlb (s : State) (n : Nat) (v : BitVec 24) : State := { s with tlb := s.tlb.setIfInBounds n v }

/-- PAGE, bits 23 to 16. -/
def tlbPageOf (v : BitVec 24) : Byte := v.extractLsb' 16 8
/-- Valid, bit 15. -/
def tlbValid (v : BitVec 24) : Bool := v.getLsbD 15
/-- Reference, bit 12. -/
def tlbReference (v : BitVec 24) : Bool := v.getLsbD 12
/-- Dirty, bit 11. -/
def tlbDirty (v : BitVec 24) : Bool := v.getLsbD 11
/-- R/W/X, bits 10 to 8. -/
def tlbRwx (v : BitVec 24) : BitVec 3 := v.extractLsb' 8 3
/-- FRAME, bits 7 to 0. -/
def tlbFrame (v : BitVec 24) : Byte := v.extractLsb' 0 8
/-- Bits 15 to 8: V, the two undefined bits, R, D and R/W/X. -/
def tlbHighOf (v : BitVec 24) : Byte := v.extractLsb' 8 8
/-- A TLB entry of its three bytes. -/
def tlbOfBytes (page high low : Byte) : BitVec 24 := page ++ high ++ low

/-- The state after TLB Clear: what it clears is not in the source (20_memory.md R72), so each of the eight entries takes
free values (log 18). -/
def State.clearTlb (s : State) : State :=
  { s with
    tlb := Vector.ofFn fun n : Fin 8 =>
      tlbOfBytes (lowByte (Config.freeWord (s.draws + 2 * n.val))) (highByte (Config.freeWord (s.draws + 2 * n.val + 1)))
        (lowByte (Config.freeWord (s.draws + 2 * n.val + 1)))
    draws := s.draws + 16 }

/-! ### `IORead` and `IOWrite` -/

/-- The byte an IN finds at a port byte, with `answer` the free draw: the devices answer it within their fixed-zero bits
(44_in_out.md R232), the TLB ports read back but for bits 14 and 13 (93_implementation_defined.md U18), the other MMU
ports answer the draw (20_memory.md R72). -/
def State.portRead (s : State) (a : Nat) (answer : Byte) : Byte :=
  match portByte a with
  | .zero => 0
  | .free => answer
  | .device readable _ => answer &&& readable
  | .tlbPage n => tlbPageOf (s.tlbEntry n)
  | .tlbHigh n => (tlbHighOf (s.tlbEntry n) &&& 0x9F) ||| (answer &&& 0x60)
  | .tlbLow n => tlbFrame (s.tlbEntry n)
  | .iplDetach => answer
  | .mmuControl => answer
  | .baseHigh => answer
  | .baseLow => answer
  | .limitHigh => answer
  | .limitLow => answer
  | .tlbClear => answer

/-- What a read leaves behind: the cause and page number registers hold what they presented (log 19). -/
def State.portNote (s : State) (a : Nat) (presented : Byte) : State :=
  match portByte a with
  | .baseHigh => { s with mmuCause := wordOfBytes presented (lowByte s.mmuCause) }
  | .baseLow => { s with mmuCause := wordOfBytes (highByte s.mmuCause) presented }
  | .limitHigh => { s with faultPage := wordOfBytes presented (lowByte s.faultPage) }
  | .limitLow => { s with faultPage := wordOfBytes (highByte s.faultPage) presented }
  | _ => s

/-- A byte written to a port byte (44_in_out.md R232, R233; 20_memory.md R57, R61, R72). -/
def State.portWrite (s : State) (a : Nat) (v : Byte) : Access State :=
  match portByte a with
  | .zero => .ok s
  | .free => .ok s
  | .device _ true => .ok (s.setIoReg a v)
  | .device _ false => .ok s
  | .tlbPage n => .ok (s.setTlb n (tlbOfBytes v (tlbHighOf (s.tlbEntry n)) (tlbFrame (s.tlbEntry n))))
  | .tlbHigh n => .ok (s.setTlb n (tlbOfBytes (tlbPageOf (s.tlbEntry n)) v (tlbFrame (s.tlbEntry n))))
  | .tlbLow n => .ok (s.setTlb n (tlbOfBytes (tlbPageOf (s.tlbEntry n)) (tlbHighOf (s.tlbEntry n)) v))
  | .iplDetach =>
    if v.getLsbD 0 then .ok { s with iplAttached := false }
    else if s.iplAttached then .ok s
    else .error (.refuse .iplReattach)
  | .mmuControl =>
    if v.getLsbD 0 || v.getLsbD 1 then .error (.refuse .mmuEnable)
    else .ok { s with relocation := false, paging := false }
  | .baseHigh => .ok { s with base := wordOfBytes v (lowByte s.base) }
  | .baseLow => .ok { s with base := wordOfBytes (highByte s.base) v }
  | .limitHigh => .ok { s with limit := wordOfBytes v (lowByte s.limit) }
  | .limitLow => .ok { s with limit := wordOfBytes (highByte s.limit) v }
  | .tlbClear => .ok s.clearTlb

/-- The state with an I/O event recorded (44_in_out.md R232). -/
def State.record (s : State) (e : IoEvent) : State := { s with trace := e :: s.trace }

/-- The value an IN of one byte or of a word delivers, zero-extended (44_in_out.md R231, R232); the device's answer is the
next free word. -/
def State.ioValue (s : State) (byteForm : Bool) (a : Word) : Word :=
  let answer := Config.freeWord s.draws
  if byteForm then (s.portRead a.toNat (lowByte answer)).setWidth 16
  else wordOfBytes (s.portRead a.toNat (highByte answer)) (s.portRead (a.toNat + 1) (lowByte answer))

/-- The state after exactly one `IORead` that delivered `v`: the answer is used up, the registers that present something
note it, the event is recorded (20_memory.md R56). -/
def State.ioReadDone (s : State) (byteForm : Bool) (a v : Word) : State :=
  let t : State := { s with draws := s.draws + 1 }
  let u := if byteForm then t.portNote a.toNat (lowByte v)
    else (t.portNote a.toNat (highByte v)).portNote (a.toNat + 1) (lowByte v)
  u.record { direction := .input, port := a, bytes := if byteForm then 1 else 2, value := v }

/-- `IOWrite(a, n, v)`: the byte or, big-endian, the two bytes (20_memory.md R50); the event is recorded. -/
def State.ioWrite (s : State) (byteForm : Bool) (a v : Word) : Access State :=
  let event : IoEvent :=
    { direction := .output, port := a, bytes := if byteForm then 1 else 2,
      value := if byteForm then (lowByte v).setWidth 16 else v }
  if byteForm then
    match s.portWrite a.toNat (lowByte v) with
    | .ok t => .ok (t.record event)
    | .error e => .error e
  else
    match s.portWrite a.toNat (highByte v) with
    | .error e => .error e
    | .ok t =>
      match t.portWrite (a.toNat + 1) (lowByte v) with
      | .ok u => .ok (u.record event)
      | .error e => .error e

/-- The check of an I/O address (44_in_out.md R230): within 0000h to 00FFh and, for a word, even. -/
def ioAddressStop (byteForm : Bool) (a : Word) : Option Stop :=
  if 0x00FF < a.toNat then some (.refuse (.ioAddress a))
  else if !byteForm && decide (a.toNat % 2 = 1) then some (.refuse (.ioOddWord a))
  else none

/-- IN and OUT are allowed with P = 1 or I = 1 (44_in_out.md R230). -/
def State.ioAllowed (s : State) : Bool := s.flag.p || s.flag.i

/-- IN (44_in_out.md R231). -/
def State.input (s : State) (rd : Reg) (m : MemEa) : Result :=
  if !s.ioAllowed then s.raise .privViolation (s.npcMem m)
  else match ioAddressStop (isByteForm m) (s.addr m) with
    | some e => s.conclude (s.npcMem m) (.error e)
    | none =>
      let v := s.ioValue (isByteForm m) (s.addr m)
      .next (((s.ioReadDone (isByteForm m) (s.addr m) v).writeReg rd v).goto (s.npcMem m))

/-- OUT (44_in_out.md R233). -/
def State.output (s : State) (rd : Reg) (m : MemEa) : Result :=
  if !s.ioAllowed then s.raise .privViolation (s.npcMem m)
  else match ioAddressStop (isByteForm m) (s.addr m) with
    | some e => s.conclude (s.npcMem m) (.error e)
    | none =>
      match s.ioWrite (isByteForm m) (s.addr m) (s.readReg rd) with
      | .ok t => .next (t.goto (s.npcMem m))
      | .error e => s.conclude (s.npcMem m) (.error e)

/-- IN, mode 0 (44_in_out.md R231). -/
def execInDrct (rd : Reg) (dsp : Word) (s : State) : Result := s.input rd (.drct dsp)

/-- IN, mode 6 (44_in_out.md R231). -/
def execInIndr (rd rx : Reg) (s : State) : Result := s.input rd (.indr rx)

/-- IN, mode 7 (44_in_out.md R231). -/
def execInBIndr (rd rx : Reg) (s : State) : Result := s.input rd (.bIndr rx)

/-- OUT, mode 0 (44_in_out.md R233). -/
def execOutDrct (rd : Reg) (dsp : Word) (s : State) : Result := s.output rd (.drct dsp)

/-- OUT, mode 6 (44_in_out.md R233). -/
def execOutIndr (rd rx : Reg) (s : State) : Result := s.output rd (.indr rx)

/-- OUT, mode 7 (44_in_out.md R233). -/
def execOutBIndr (rd rx : Reg) (s : State) : Result := s.output rd (.bIndr rx)

end Sys2Proof.Machine
end

