-- ==== Sys2Proof/Machine/Jump.lean ====
section
/-! DEFINITION. Jumps and CALL (43_jump_call.md), and the register-indirect jump and CALL that JUMP_INDR = jump gives the
OP bytes A6h and AEh (30_encoding.md R105). -/

namespace Sys2Proof.Machine

/-- A jump (43_jump_call.md R200): the target is the effective address itself. -/
def State.jump (s : State) (k : Cond) (m : MemEa) : Result :=
  .next (s.goto (if condHolds k s.flag then s.addr m else s.npcMem m))

/-- CALL (43_jump_call.md R217): the target is computed before SP changes; the address of the next instruction is
pushed. -/
def State.call (s : State) (m : MemEa) : Result :=
  match s.push (s.npcMem m) with
  | .ok t => .next (t.goto (s.addr m))
  | .error e => s.conclude (s.npcMem m) (.error e)

/-- OP bytes A6h and AEh (30_encoding.md R105) by the parameter JUMP_INDR. Under `jump`, A6h jumps on the condition of its
Rd and AEh, with Rd = 0h, calls; the target is the content of Rx and the instruction is one word. -/
def State.openByte (s : State) (w1 : Word) : Result :=
  match s.params.jumpIndr with
  | .refuse => .refused (.jumpIndr w1)
  | .undefined => s.raise .undefinedInstruction s.npcOne
  | .jump =>
    let target := MemEa.indr (Reg.ofNibble (rxField w1))
    if op5Of w1 = 0x14 then
      match Cond.ofNibble (rdField w1) with
      | some k => s.jump k target
      | none => .refused (.reservedField w1)
    else if rdField w1 = 0 then s.call target
    else .refused (.reservedField w1)

/-- JZ, mode 0 (43_jump_call.md R202). -/
def execJzDrct (dsp : Word) (s : State) : Result := s.jump .z (.drct dsp)

/-- JZ, mode 1 (43_jump_call.md R202). -/
def execJzIndex (rx : Reg) (dsp : Word) (s : State) : Result := s.jump .z (.index dsp rx)

/-- JC, mode 0 (43_jump_call.md R203). -/
def execJcDrct (dsp : Word) (s : State) : Result := s.jump .c (.drct dsp)

/-- JC, mode 1 (43_jump_call.md R203). -/
def execJcIndex (rx : Reg) (dsp : Word) (s : State) : Result := s.jump .c (.index dsp rx)

/-- JM, mode 0 (43_jump_call.md R204). -/
def execJmDrct (dsp : Word) (s : State) : Result := s.jump .m (.drct dsp)

/-- JM, mode 1 (43_jump_call.md R204). -/
def execJmIndex (rx : Reg) (dsp : Word) (s : State) : Result := s.jump .m (.index dsp rx)

/-- JO, mode 0 (43_jump_call.md R205). -/
def execJoDrct (dsp : Word) (s : State) : Result := s.jump .o (.drct dsp)

/-- JO, mode 1 (43_jump_call.md R205). -/
def execJoIndex (rx : Reg) (dsp : Word) (s : State) : Result := s.jump .o (.index dsp rx)

/-- JGT, mode 0 (43_jump_call.md R206). -/
def execJgtDrct (dsp : Word) (s : State) : Result := s.jump .gt (.drct dsp)

/-- JGT, mode 1 (43_jump_call.md R206). -/
def execJgtIndex (rx : Reg) (dsp : Word) (s : State) : Result := s.jump .gt (.index dsp rx)

/-- JGE, mode 0 (43_jump_call.md R207). -/
def execJgeDrct (dsp : Word) (s : State) : Result := s.jump .ge (.drct dsp)

/-- JGE, mode 1 (43_jump_call.md R207). -/
def execJgeIndex (rx : Reg) (dsp : Word) (s : State) : Result := s.jump .ge (.index dsp rx)

/-- JLE, mode 0 (43_jump_call.md R208). -/
def execJleDrct (dsp : Word) (s : State) : Result := s.jump .le (.drct dsp)

/-- JLE, mode 1 (43_jump_call.md R208). -/
def execJleIndex (rx : Reg) (dsp : Word) (s : State) : Result := s.jump .le (.index dsp rx)

/-- JLT, mode 0 (43_jump_call.md R209). -/
def execJltDrct (dsp : Word) (s : State) : Result := s.jump .lt (.drct dsp)

/-- JLT, mode 1 (43_jump_call.md R209). -/
def execJltIndex (rx : Reg) (dsp : Word) (s : State) : Result := s.jump .lt (.index dsp rx)

/-- JNZ, mode 0 (43_jump_call.md R210). -/
def execJnzDrct (dsp : Word) (s : State) : Result := s.jump .nz (.drct dsp)

/-- JNZ, mode 1 (43_jump_call.md R210). -/
def execJnzIndex (rx : Reg) (dsp : Word) (s : State) : Result := s.jump .nz (.index dsp rx)

/-- JNC, mode 0 (43_jump_call.md R211). -/
def execJncDrct (dsp : Word) (s : State) : Result := s.jump .nc (.drct dsp)

/-- JNC, mode 1 (43_jump_call.md R211). -/
def execJncIndex (rx : Reg) (dsp : Word) (s : State) : Result := s.jump .nc (.index dsp rx)

/-- JNM, mode 0 (43_jump_call.md R212). -/
def execJnmDrct (dsp : Word) (s : State) : Result := s.jump .nm (.drct dsp)

/-- JNM, mode 1 (43_jump_call.md R212). -/
def execJnmIndex (rx : Reg) (dsp : Word) (s : State) : Result := s.jump .nm (.index dsp rx)

/-- JNO, mode 0 (43_jump_call.md R213). -/
def execJnoDrct (dsp : Word) (s : State) : Result := s.jump .no (.drct dsp)

/-- JNO, mode 1 (43_jump_call.md R213). -/
def execJnoIndex (rx : Reg) (dsp : Word) (s : State) : Result := s.jump .no (.index dsp rx)

/-- JHI, mode 0 (43_jump_call.md R214). -/
def execJhiDrct (dsp : Word) (s : State) : Result := s.jump .hi (.drct dsp)

/-- JHI, mode 1 (43_jump_call.md R214). -/
def execJhiIndex (rx : Reg) (dsp : Word) (s : State) : Result := s.jump .hi (.index dsp rx)

/-- JLS, mode 0 (43_jump_call.md R215). -/
def execJlsDrct (dsp : Word) (s : State) : Result := s.jump .ls (.drct dsp)

/-- JLS, mode 1 (43_jump_call.md R215). -/
def execJlsIndex (rx : Reg) (dsp : Word) (s : State) : Result := s.jump .ls (.index dsp rx)

/-- JMP, mode 0 (43_jump_call.md R216). -/
def execJmpDrct (dsp : Word) (s : State) : Result := s.jump .always (.drct dsp)

/-- JMP, mode 1 (43_jump_call.md R216). -/
def execJmpIndex (rx : Reg) (dsp : Word) (s : State) : Result := s.jump .always (.index dsp rx)

/-- CALL, mode 0 (43_jump_call.md R217). -/
def execCallDrct (dsp : Word) (s : State) : Result := s.call (.drct dsp)

/-- CALL, mode 1 (43_jump_call.md R217). -/
def execCallIndex (rx : Reg) (dsp : Word) (s : State) : Result := s.call (.index dsp rx)

end Sys2Proof.Machine
end

