-- ==== Sys2Proof/Machine/LoadStore.lean ====
section
/-! DEFINITION. NO, LD and ST (40_no_ld_st.md). -/

namespace Sys2Proof.Machine

/-- LD (40_no_ld_st.md R132): Rd receives the operand; with Rd = Fh this is `FlagWrite`. -/
def State.load (s : State) (rd : Reg) (ea : Ea) : Result :=
  match s.value ea with
  | .ok v => .next ((s.writeReg rd v).goto (s.npcEa ea))
  | .error e => s.conclude (s.npcEa ea) (.error e)

/-- The store of ST (40_no_ld_st.md R133): a word, or in mode 7 bits 7 to 0 as a byte. -/
def State.storeValue (s : State) (m : MemEa) (v : Word) : Access State :=
  if isByteForm m then s.writeByte (s.addr m) (lowByte v) else s.writeWord (s.addr m) v

/-- ST (40_no_ld_st.md R133). -/
def State.store (s : State) (rd : Reg) (m : MemEa) : Result :=
  match s.storeValue m (s.readReg rd) with
  | .ok t => .next (t.goto (s.npcMem m))
  | .error e => s.conclude (s.npcMem m) (.error e)

/-- NO (40_no_ld_st.md R131): nothing but the advance of pc. -/
def execNo (s : State) : Result := .next (s.goto s.npcOne)

/-- LD, mode 0 (40_no_ld_st.md R132). -/
def execLdDrct (rd : Reg) (dsp : Word) (s : State) : Result := s.load rd (.mem (.drct dsp))

/-- LD, mode 1 (40_no_ld_st.md R132). -/
def execLdIndex (rd rx : Reg) (dsp : Word) (s : State) : Result := s.load rd (.mem (.index dsp rx))

/-- LD, mode 2 (40_no_ld_st.md R132). -/
def execLdImm (rd : Reg) (imm : Word) (s : State) : Result := s.load rd (.imm imm)

/-- LD, mode 3 (40_no_ld_st.md R132). -/
def execLdFpRlt (rd : Reg) (dsp4 : Int) (s : State) : Result := s.load rd (.mem (.fpRlt dsp4))

/-- LD, mode 4 (40_no_ld_st.md R132). -/
def execLdReg (rd rs : Reg) (s : State) : Result := s.load rd (.reg rs)

/-- LD, mode 5 (40_no_ld_st.md R132). -/
def execLdImm4 (rd : Reg) (imm4 : Int) (s : State) : Result := s.load rd (.imm4 imm4)

/-- LD, mode 6 (40_no_ld_st.md R132). -/
def execLdIndr (rd rx : Reg) (s : State) : Result := s.load rd (.mem (.indr rx))

/-- LD, mode 7 (40_no_ld_st.md R132). -/
def execLdBIndr (rd rx : Reg) (s : State) : Result := s.load rd (.mem (.bIndr rx))

/-- ST, mode 0 (40_no_ld_st.md R133). -/
def execStDrct (rd : Reg) (dsp : Word) (s : State) : Result := s.store rd (.drct dsp)

/-- ST, mode 1 (40_no_ld_st.md R133). -/
def execStIndex (rd rx : Reg) (dsp : Word) (s : State) : Result := s.store rd (.index dsp rx)

/-- ST, mode 3 (40_no_ld_st.md R133). -/
def execStFpRlt (rd : Reg) (dsp4 : Int) (s : State) : Result := s.store rd (.fpRlt dsp4)

/-- ST, mode 6 (40_no_ld_st.md R133). -/
def execStIndr (rd rx : Reg) (s : State) : Result := s.store rd (.indr rx)

/-- ST, mode 7 (40_no_ld_st.md R133). -/
def execStBIndr (rd rx : Reg) (s : State) : Result := s.store rd (.bIndr rx)

end Sys2Proof.Machine
end

