-- ==== Sys2Proof/Machine/Shift.lean ====
section
/-! DEFINITION. Shifts (42_shift.md): SHLA, SHLL, SHRA, SHRL. -/

namespace Sys2Proof.Machine

/-- SHLA's and SHLL's result for a count of 0 to 15 (42_shift.md R181, R182): `(u(a) * 2^n) mod 2^16`. -/
def shiftLeft (a : Word) (n : Nat) : Word := BitVec.ofNat 16 (a.toNat * 2 ^ n)

/-- SHRA's result for a count of 0 to 15 (42_shift.md R183): `floor(s(a) / 2^n)`. -/
def shiftRightArith (a : Word) (n : Nat) : Word := BitVec.ofInt 16 (a.toInt / 2 ^ n)

/-- SHRL's result for a count of 0 to 15 (42_shift.md R184): `floor(u(a) / 2^n)`. -/
def shiftRightLogic (a : Word) (n : Nat) : Word := BitVec.ofNat 16 (a.toNat / 2 ^ n)

/-- The writes of a shift (42_shift.md R180): the result with Z and S from it and C and V drawn for a count of 0 to 15;
for a larger count Rd and V, C, S, Z are free values. -/
def State.shiftAct (rd : Reg) (result : Word → Nat → Word) (s : State) (a count : Word) : State :=
  if count.toNat ≤ 15 then s.resultDrawn rd (result a count.toNat) else (s.drawReg rd).drawVCSZ

/-- SHLA, mode 0 (42_shift.md R181). -/
def execShlaDrct (rd : Reg) (dsp : Word) (s : State) : Result := s.operate rd (.mem (.drct dsp)) (State.shiftAct rd shiftLeft)

/-- SHLA, mode 1 (42_shift.md R181). -/
def execShlaIndex (rd rx : Reg) (dsp : Word) (s : State) : Result := s.operate rd (.mem (.index dsp rx)) (State.shiftAct rd shiftLeft)

/-- SHLA, mode 2 (42_shift.md R181). -/
def execShlaImm (rd : Reg) (imm : Word) (s : State) : Result := s.operate rd (.imm imm) (State.shiftAct rd shiftLeft)

/-- SHLA, mode 3 (42_shift.md R181). -/
def execShlaFpRlt (rd : Reg) (dsp4 : Int) (s : State) : Result := s.operate rd (.mem (.fpRlt dsp4)) (State.shiftAct rd shiftLeft)

/-- SHLA, mode 4 (42_shift.md R181). -/
def execShlaReg (rd rs : Reg) (s : State) : Result := s.operate rd (.reg rs) (State.shiftAct rd shiftLeft)

/-- SHLA, mode 5 (42_shift.md R181). -/
def execShlaImm4 (rd : Reg) (imm4 : Int) (s : State) : Result := s.operate rd (.imm4 imm4) (State.shiftAct rd shiftLeft)

/-- SHLA, mode 6 (42_shift.md R181). -/
def execShlaIndr (rd rx : Reg) (s : State) : Result := s.operate rd (.mem (.indr rx)) (State.shiftAct rd shiftLeft)

/-- SHLA, mode 7 (42_shift.md R181). -/
def execShlaBIndr (rd rx : Reg) (s : State) : Result := s.operate rd (.mem (.bIndr rx)) (State.shiftAct rd shiftLeft)

/-- SHLL, mode 0 (42_shift.md R182). -/
def execShllDrct (rd : Reg) (dsp : Word) (s : State) : Result := s.operate rd (.mem (.drct dsp)) (State.shiftAct rd shiftLeft)

/-- SHLL, mode 1 (42_shift.md R182). -/
def execShllIndex (rd rx : Reg) (dsp : Word) (s : State) : Result := s.operate rd (.mem (.index dsp rx)) (State.shiftAct rd shiftLeft)

/-- SHLL, mode 2 (42_shift.md R182). -/
def execShllImm (rd : Reg) (imm : Word) (s : State) : Result := s.operate rd (.imm imm) (State.shiftAct rd shiftLeft)

/-- SHLL, mode 3 (42_shift.md R182). -/
def execShllFpRlt (rd : Reg) (dsp4 : Int) (s : State) : Result := s.operate rd (.mem (.fpRlt dsp4)) (State.shiftAct rd shiftLeft)

/-- SHLL, mode 4 (42_shift.md R182). -/
def execShllReg (rd rs : Reg) (s : State) : Result := s.operate rd (.reg rs) (State.shiftAct rd shiftLeft)

/-- SHLL, mode 5 (42_shift.md R182). -/
def execShllImm4 (rd : Reg) (imm4 : Int) (s : State) : Result := s.operate rd (.imm4 imm4) (State.shiftAct rd shiftLeft)

/-- SHLL, mode 6 (42_shift.md R182). -/
def execShllIndr (rd rx : Reg) (s : State) : Result := s.operate rd (.mem (.indr rx)) (State.shiftAct rd shiftLeft)

/-- SHLL, mode 7 (42_shift.md R182). -/
def execShllBIndr (rd rx : Reg) (s : State) : Result := s.operate rd (.mem (.bIndr rx)) (State.shiftAct rd shiftLeft)

/-- SHRA, mode 0 (42_shift.md R183). -/
def execShraDrct (rd : Reg) (dsp : Word) (s : State) : Result := s.operate rd (.mem (.drct dsp)) (State.shiftAct rd shiftRightArith)

/-- SHRA, mode 1 (42_shift.md R183). -/
def execShraIndex (rd rx : Reg) (dsp : Word) (s : State) : Result := s.operate rd (.mem (.index dsp rx)) (State.shiftAct rd shiftRightArith)

/-- SHRA, mode 2 (42_shift.md R183). -/
def execShraImm (rd : Reg) (imm : Word) (s : State) : Result := s.operate rd (.imm imm) (State.shiftAct rd shiftRightArith)

/-- SHRA, mode 3 (42_shift.md R183). -/
def execShraFpRlt (rd : Reg) (dsp4 : Int) (s : State) : Result := s.operate rd (.mem (.fpRlt dsp4)) (State.shiftAct rd shiftRightArith)

/-- SHRA, mode 4 (42_shift.md R183). -/
def execShraReg (rd rs : Reg) (s : State) : Result := s.operate rd (.reg rs) (State.shiftAct rd shiftRightArith)

/-- SHRA, mode 5 (42_shift.md R183). -/
def execShraImm4 (rd : Reg) (imm4 : Int) (s : State) : Result := s.operate rd (.imm4 imm4) (State.shiftAct rd shiftRightArith)

/-- SHRA, mode 6 (42_shift.md R183). -/
def execShraIndr (rd rx : Reg) (s : State) : Result := s.operate rd (.mem (.indr rx)) (State.shiftAct rd shiftRightArith)

/-- SHRA, mode 7 (42_shift.md R183). -/
def execShraBIndr (rd rx : Reg) (s : State) : Result := s.operate rd (.mem (.bIndr rx)) (State.shiftAct rd shiftRightArith)

/-- SHRL, mode 0 (42_shift.md R184). -/
def execShrlDrct (rd : Reg) (dsp : Word) (s : State) : Result := s.operate rd (.mem (.drct dsp)) (State.shiftAct rd shiftRightLogic)

/-- SHRL, mode 1 (42_shift.md R184). -/
def execShrlIndex (rd rx : Reg) (dsp : Word) (s : State) : Result := s.operate rd (.mem (.index dsp rx)) (State.shiftAct rd shiftRightLogic)

/-- SHRL, mode 2 (42_shift.md R184). -/
def execShrlImm (rd : Reg) (imm : Word) (s : State) : Result := s.operate rd (.imm imm) (State.shiftAct rd shiftRightLogic)

/-- SHRL, mode 3 (42_shift.md R184). -/
def execShrlFpRlt (rd : Reg) (dsp4 : Int) (s : State) : Result := s.operate rd (.mem (.fpRlt dsp4)) (State.shiftAct rd shiftRightLogic)

/-- SHRL, mode 4 (42_shift.md R184). -/
def execShrlReg (rd rs : Reg) (s : State) : Result := s.operate rd (.reg rs) (State.shiftAct rd shiftRightLogic)

/-- SHRL, mode 5 (42_shift.md R184). -/
def execShrlImm4 (rd : Reg) (imm4 : Int) (s : State) : Result := s.operate rd (.imm4 imm4) (State.shiftAct rd shiftRightLogic)

/-- SHRL, mode 6 (42_shift.md R184). -/
def execShrlIndr (rd rx : Reg) (s : State) : Result := s.operate rd (.mem (.indr rx)) (State.shiftAct rd shiftRightLogic)

/-- SHRL, mode 7 (42_shift.md R184). -/
def execShrlBIndr (rd rx : Reg) (s : State) : Result := s.operate rd (.mem (.bIndr rx)) (State.shiftAct rd shiftRightLogic)

end Sys2Proof.Machine
end

