-- ==== Sys2Proof/Machine/Stack.lean ====
section
/-! DEFINITION. PUSH, POP, RET and RETI (45_stack_return.md). -/

namespace Sys2Proof.Machine

/-- Whether a register name denotes the stack pointer in use: SP, or in user mode USP (10_state.md R24). -/
def State.namesSp (s : State) (r : Reg) : Bool := decide (homeOf r s.flag.p = homeOf .sp s.flag.p)

/-- PUSH (45_stack_return.md R241); PUSH of the stack pointer itself is refused. -/
def execPush (rd : Reg) (s : State) : Result :=
  if s.namesSp rd then .refused .pushSp
  else match s.push (s.readReg rd) with
    | .ok t => .next (t.goto s.npcOne)
    | .error e => s.conclude s.npcOne (.error e)

/-- POP (45_stack_return.md R242): the increment is applied to the stack pointer that was read, then Rd is written; with
Rd = Fh this is `FlagWrite`. POP into the stack pointer itself is refused. -/
def execPop (rd : Reg) (s : State) : Result :=
  if s.namesSp rd then .refused .popSp
  else match s.pop with
    | .ok (v, t) => .next ((t.writeReg rd v).goto s.npcOne)
    | .error e => s.conclude s.npcOne (.error e)

/-- RET (45_stack_return.md R243). -/
def execRet (s : State) : Result :=
  match s.pop with
  | .ok (v, t) => .next (t.goto v)
  | .error e => s.conclude s.npcOne (.error e)

/-- RETI (45_stack_return.md R246). -/
def execReti (s : State) : Result :=
  match s.trapReturn with
  | .ok t => .next t
  | .error e => s.conclude s.npcOne (.error e)

end Sys2Proof.Machine
end

