-- ==== Sys2Proof/Machine/System.lean ====
section
/-! DEFINITION. SVC and HALT (46_system.md). -/

namespace Sys2Proof.Machine

/-- SVC (46_system.md R260): takes the exception `Svc`, in either mode; the saved pc is the next instruction's. -/
def execSvc (s : State) : Result := s.raise .svc s.npcOne

/-- HALT (46_system.md R262): privileged; the machine is halted with pc after the HALT. -/
def execHalt (s : State) : Result :=
  if s.flag.p then .next (({ s with halted := true } : State).goto s.npcOne) else s.raise .privViolation s.npcOne

end Sys2Proof.Machine
end

