-- ==== Sys2Proof/Machine/Run.lean ====
section
/-! DEFINITION. One instruction from its fetch to its effect (00_scope.md R12, steps 3 to 5), and the device interrupts
(60_exceptions.md R310 to R315, R330). -/

namespace Sys2Proof.Machine

/-! ### Fetch, decode, execute -/

/-- Fetch and decode at pc: the second word is fetched only where the first begins a two-word instruction
(00_scope.md R12, 30_encoding.md R92). -/
def State.fetch (s : State) : Access Decoded :=
  match s.readWord s.pc with
  | .error e => .error e
  | .ok w1 =>
    if hasSecondWord w1 then
      match s.readWord (s.pc + 2) with
      | .error e => .error e
      | .ok w2 => .ok (decode w1 w2)
    else .ok (decode w1 0)

/-- The word at pc, for the name of a refusal. -/
def State.firstWord (s : State) : Word := s.wordAt s.pc

/-- The instruction at pc: its meaning; an undefined instruction raises (30_encoding.md R103), a reserved field value is
refused (R104), A6h and AEh follow their parameter (R105). -/
def State.runInstruction (s : State) : Result :=
  match s.fetch with
  | .error e => s.conclude s.npcOne (.error e)
  | .ok (.instr i) => exec i s
  | .ok .undefined => s.raise .undefinedInstruction s.npcOne
  | .ok .reserved => .refused (.reservedField s.firstWord)
  | .ok (.indirect w1) => s.openByte w1

/-! ### Device interrupts -/

/-- The number of device interrupt sources (60_exceptions.md R310). -/
def sources : Nat := 10

/-- Whether the enable bits of source n have been written 1 (60_exceptions.md R311, R312, R351 to R354): the timers need
I (bit 15) and S (bit 0) of their control word, the serial devices T (bit 7) or R (bit 6), microSD INT_ENA (bit 7). PIO has
no enable bit whose use is described; a nonzero PIO-Mask or PIO-Xor enables it: DEDUCED (log 15). DESIGN CHOICE (log 46):
the bits are those the registers hold now, so a source whose bit is rewritten to 0 makes no new request; the rules say only
"has been written". -/
def State.irqEnabled (s : State) (n : Nat) : Bool :=
  match n with
  | 0 => decide (s.pioMask ≠ 0) || decide (s.pioXor ≠ 0)
  | 1 => s.usdCtrl.getLsbD 7
  | 2 => s.tecCtrl.getLsbD 7
  | 3 => s.tecCtrl.getLsbD 6
  | 4 => s.ft232rlCtrl.getLsbD 7
  | 5 => s.ft232rlCtrl.getLsbD 6
  | 6 => s.rn4020Ctrl.getLsbD 7
  | 7 => s.rn4020Ctrl.getLsbD 6
  | 8 => s.timer1Ctrl.getLsbD 15 && s.timer1Ctrl.getLsbD 0
  | 9 => s.timer0Ctrl.getLsbD 15 && s.timer0Ctrl.getLsbD 0
  | _ => false

/-- `pending[n]` as a bit of the field. -/
def pendingBit (n : Nat) : BitVec 10 := BitVec.ofNat 10 (2 ^ n)

/-- An enabled source may request at any step boundary (60_exceptions.md R312): a free bit says whether it does. -/
def State.arrive (s : State) (n : Nat) : State :=
  if s.irqEnabled n then
    { s with pending := s.pending ||| (if Config.freeBit s.draws then pendingBit n else 0), draws := s.draws + 1 }
  else s

/-- The state at a step boundary, after the enabled sources have made their requests. -/
def State.atBoundary (s : State) : State := (List.range sources).foldl State.arrive s

/-- The sources that are requesting. -/
def State.requesting (s : State) : List Nat := (List.range sources).filter fun n => s.pending.getLsbD n

/-- Which requesting source is taken: the first in IRQ_PRIORITY; by default any one of them, by a free word
(60_exceptions.md R315). -/
def State.pickInterrupt (s : State) (choice : Word) : Nat :=
  match s.params.irqOrder.find? (fun n => decide (n ∈ s.requesting)) with
  | some n => n
  | none => s.requesting.getD (choice.toNat % s.requesting.length) 0

/-- Whether an interrupt is taken at the step boundary, and which: only with E = 1 and a request (60_exceptions.md R330);
it is taken "at this or at some later step boundary" (00_scope.md R12), so a free bit says whether it is taken now. -/
def State.chooseInterrupt (s : State) : Option Nat × State :=
  if s.flag.e && decide (s.pending ≠ 0) then
    if Config.freeBit s.draws then
      (some (s.pickInterrupt (Config.freeWord (s.draws + 1))), { s with draws := s.draws + 2 })
    else (none, { s with draws := s.draws + 1 })
  else (none, s)

/-- Taking device interrupt n (60_exceptions.md R330): the request is cleared and the trap entered with the pc of the
instruction that has not been started. -/
def State.takeInterrupt (s : State) (n : Nat) : Result :=
  ({ s with pending := s.pending &&& ~~~ pendingBit n } : State).trapEntry n s.pc

/-! ### Placing an instruction where the next step fetches it -/

/-- The byte placed where a read of the address finds it: in the IPL ROM where that covers the address, else in RAM. -/
def State.placeByte (s : State) (a : Word) (v : Byte) : State :=
  if s.iplCovers a then { s with rom := Memory.put s.rom a.toNat v } else s.storeByte a v

/-- The word placed, big-endian, at the address a fetch from `a` uses (20_memory.md R52). -/
def State.placeWord (s : State) (a w : Word) : State :=
  let b := if s.params.misaligned = .ignoreBit0 then a &&& 0xFFFE else a
  (s.placeByte b (highByte w)).placeByte (b + 1) (lowByte w)

end Sys2Proof.Machine
end

