-- ==== Sys2Proof/Machine/Step.lean ====
section
/-! DEFINITION. One step of the CPU (00_scope.md R12). -/

namespace Sys2Proof.Machine

/-- One step (00_scope.md R12): a halted machine stays as it is (46_system.md R262, 60_exceptions.md R372); at the step
boundary the enabled sources may request and a pending interrupt may be taken, which is then the whole step; otherwise the
instruction at pc runs. -/
def step (s : State) : Host.Outcome State Fault Refusal :=
  if s.halted then .next s
  else
    match s.atBoundary.chooseInterrupt with
    | (some n, t) => t.takeInterrupt n
    | (none, t) => t.runInstruction

/-- The state with an instruction placed where the next step fetches: its first word at pc, the word after it behind, every
bit above `nbits` being 0 (log 4). -/
def State.withFetchWord (s : State) (nbits w : Nat) : State :=
  let bits := w % 2 ^ nbits
  (s.placeWord s.pc (BitVec.ofNat 16 bits)).placeWord (s.pc + 2) (BitVec.ofNat 16 (bits / 65536))

end Sys2Proof.Machine
end

