-- ==== Sys2Proof/Safety.lean ====
section
/-! DEFINITION. The terms the statements are written in: what a state must satisfy (the invariant), what an instruction
leaves unchanged (the frame), and when an access can be made. -/

namespace Sys2Proof.Machine

/-! ### The invariant of the machine -/

/-- What holds after reset and is kept by every step: the memories are in canonical form, the machine is in the admitted
subset (relocation and paging off, 20_memory.md R72), and RAM under the attached IPL ROM has no value (20_memory.md R61:
it is "without value until written", and a store there is refused while the ROM is attached). -/
structure State.Inv (s : State) : Prop where
  mem_wf : Memory.wf 65536 s.mem
  rom_wf : Memory.wf 65536 s.rom
  io_wf : ioWf s.io
  mmu_off : s.mmuOn = false
  hidden_ram : s.iplAttached = true → ∀ a ∈ s.mem.map Prod.fst, a < iplBase

/-! ### When an access can be made -/

/-- A word can be read at an address whatever MISALIGNED_WORD is: the MMU is off and the address is even. -/
def State.wordReadable (s : State) (a : Word) : Prop := s.mmuOn = false ∧ a.toNat % 2 = 0

/-- A word can be stored at an address: it can be read there, and the IPL ROM does not cover it. -/
def State.wordWritable (s : State) (a : Word) : Prop := s.wordReadable a ∧ s.iplCovers a = false

/-- A byte can be stored at an address. -/
def State.byteWritable (s : State) (a : Word) : Prop := s.mmuOn = false ∧ s.iplCovers a = false

/-- A trap frame can be pushed: SSP is even and the two words below it can be stored. -/
def State.frameWritable (s : State) : Prop := s.wordWritable (s.ssp - 2) ∧ s.wordWritable (s.ssp - 4)

/-- Neither a request nor an interrupt comes at this step boundary: no source is enabled (as `State.irqEnabled` has it, log
46) and none is requesting, or E is 0 and no source is enabled. -/
def State.quiet (s : State) : Prop :=
  s.halted = false ∧ (∀ n, s.irqEnabled n = false) ∧ (s.flag.e = false ∨ s.pending = 0)

/-! ### What stays unchanged -/

/-- Every general register and stack pointer but the one at a place keeps its value. -/
def RegistersKeptBut (h : Home) (s t : State) : Prop := ∀ g, g ≠ h → g ≠ .flag → t.peek g = s.peek g

/-- Every general register and stack pointer keeps its value. -/
def RegistersKept (s t : State) : Prop := ∀ g, g ≠ .flag → t.peek g = s.peek g

/-- Every byte of memory reads as before. -/
def MemoryKept (s t : State) : Prop := ∀ a, t.byteAt a = s.byteAt a

/-- Every byte of memory but the two of the word at an address reads as before. -/
def MemoryKeptButWord (x : Word) (s t : State) : Prop := ∀ a, a ≠ x → a ≠ x + 1 → t.byteAt a = s.byteAt a

/-- E, P and I keep their values. -/
def ModeKept (s t : State) : Prop := t.flag.e = s.flag.e ∧ t.flag.p = s.flag.p ∧ t.flag.i = s.flag.i

/-- The state of the memory system and of the devices, the pending requests, the halt and the parameters keep their
values: all of State but the general registers and stack pointers, pc, FLAG, the RAM, and the model's own two fields. -/
structure SystemKept (s t : State) : Prop where
  rom : t.rom = s.rom
  iplAttached : t.iplAttached = s.iplAttached
  halted : t.halted = s.halted
  pending : t.pending = s.pending
  relocation : t.relocation = s.relocation
  paging : t.paging = s.paging
  base : t.base = s.base
  limit : t.limit = s.limit
  mmuCause : t.mmuCause = s.mmuCause
  faultPage : t.faultPage = s.faultPage
  tlb : t.tlb = s.tlb
  io : t.io = s.io
  params : t.params = s.params

/-- As `SystemKept`, and no I/O access has been made. -/
def SystemAndTraceKept (s t : State) : Prop := SystemKept s t ∧ t.trace = s.trace

/-- FLAG with V, C, S and Z replaced. -/
def Flag.withVCSZ (f : Flag) (v c s z : Bool) : Flag := { f with v := v, c := c, s := s, z := z }

/-! ### Rows by their operand -/

/-- The row of IN for an address form (44_in_out.md R231: modes 0, 6, 7). -/
def inRow (rd : Reg) (m : MemEa) : Option Instr :=
  match m with
  | .drct dsp => some (.inDrct rd dsp)
  | .indr rx => some (.inIndr rd rx)
  | .bIndr rx => some (.inBIndr rd rx)
  | _ => none

/-- The row of OUT for an address form (44_in_out.md R233: modes 0, 6, 7). -/
def outRow (rd : Reg) (m : MemEa) : Option Instr :=
  match m with
  | .drct dsp => some (.outDrct rd dsp)
  | .indr rx => some (.outIndr rd rx)
  | .bIndr rx => some (.outBIndr rd rx)
  | _ => none

/-- The row of CALL for an address form (43_jump_call.md R217: modes 0, 1). -/
def callRow (m : MemEa) : Option Instr :=
  match m with
  | .drct dsp => some (.callDrct dsp)
  | .index dsp rx => some (.callIndex rx dsp)
  | _ => none

/-- An I/O access at an address is within the I/O space and, if of a word, even (20_memory.md R57). -/
def ioAccess (m : MemEa) (a : Word) : Prop := a.toNat ≤ 0xFF ∧ (isByteForm m = false → a.toNat % 2 = 0)

/-- The byte that an I/O access moves at a port byte: `v` is the value, `a` the address of the form. A word's upper byte is
at `a` and its lower byte at `a + 1` (20_memory.md R50); mode 7 moves bits 7 to 0 at `a` (20_memory.md R54). -/
def accessByte (m : MemEa) (a v : Word) (port : Nat) : Option Byte :=
  if isByteForm m then (if port = a.toNat then some (v.extractLsb' 0 8) else none)
  else if port = a.toNat then some (v.extractLsb' 8 8)
  else if port = a.toNat + 1 then some (v.extractLsb' 0 8)
  else none

/-- The event an OUT of a value records (44_in_out.md R232, R233). -/
def outEvent (m : MemEa) (a v : Word) : IoEvent :=
  if isByteForm m then ⟨.output, a, 1, (v.extractLsb' 0 8).setWidth 16⟩ else ⟨.output, a, 2, v⟩

/-- The row of an access may make it: P = 1 or I = 1, and the address is in the I/O space and, for a word, even
(44_in_out.md R230). -/
def State.ioAdmits (s : State) (m : MemEa) : Prop := (s.flag.p = true ∨ s.flag.i = true) ∧ ioAccess m (s.addr m)

/-! ### A trap taken -/

/-- `t` is `s` after trap entry n with the saved pc `pc` and the old FLAG `f0` (60_exceptions.md R320). -/
structure TrapTaken (n : Nat) (pc f0 : Word) (s t : State) : Prop where
  /-- SSP is 4 lower -/
  ssp : t.ssp = s.ssp - 4
  /-- the word at SSP + 2 is the saved pc -/
  saved_pc : t.wordAt (s.ssp - 2) = pc
  /-- the word at SSP is the old FLAG -/
  saved_flag : t.wordAt (s.ssp - 4) = f0
  /-- the handler address from the vector table, read after the pushes -/
  handler : t.pc = t.wordAt (vectorAddress n)
  /-- P is set and E cleared; I is unchanged -/
  mode : t.flag.p = true ∧ t.flag.e = false ∧ t.flag.i = s.flag.i
  /-- USP and G0 to G12 are unchanged -/
  usp : t.usp = s.usp
  regs : t.regs = s.regs
  /-- memory outside the frame is unchanged -/
  memory : ∀ a, a ≠ s.ssp - 4 → a ≠ s.ssp - 3 → a ≠ s.ssp - 2 → a ≠ s.ssp - 1 → t.byteAt a = s.byteAt a

end Sys2Proof.Machine
end

