-- ==== Sys2Proof/Certificates/Slice0/Obligations.lean ====
section
/-! DEFINITION. The statements for the provers, by the families of the spec. `Instr.ofEa op rd ea` is the row of an
eight-mode instruction for an operand, `Instr.ofSt` the row of ST, `Instr.ofJumpDrct` and `Instr.ofJumpIndex` those of a
jump, `inRow`, `outRow` and `callRow` those of IN, OUT and CALL: each of them ranges over all rows of its instruction. -/

open Sys2Proof Sys2Proof.Machine

/-! ### No operation, load and store (40_no_ld_st.md) -/

/-- R131: NO is the word 0000h and only that; it advances pc by 2 and changes nothing else. -/
def Obligations.NoOnlyAdvancesPc : Prop :=
  (∀ w2, decode 0x0000 w2 = .instr .no) ∧
  (∀ w1 w2 : Word, w1.extractLsb' 8 8 = 0 → w1 ≠ 0 → decode w1 w2 = .reserved) ∧
  ∀ s, exec .no s = .next (s.goto (s.pc + 2))

/-- R132: LD writes the operand to Rd and nothing else, in every mode, for every Rd but FLAG. (Rests on: a byte operand
is zero-extended by decision D11 (log 31).) -/
def Obligations.LoadWritesOperand : Prop :=
  ∀ (rd : Reg) (ea : Ea) (s : State) (v : Word), rd ≠ .flag → s.value ea = .ok v →
    ∃ t, exec (Instr.ofEa .ld rd ea) s = .next t ∧ t.peek (homeOf rd s.flag.p) = v ∧
      RegistersKeptBut (homeOf rd s.flag.p) s t ∧ t.flag = s.flag ∧ t.pc = s.pc + eaBytes ea ∧ MemoryKept s t ∧
      SystemAndTraceKept s t

/-- R132, R30: LD with Rd = Fh: all seven bits in privileged mode, only V, C, S, Z in user mode. (Rests on: the
user-mode half is decision D16 (log 29).) -/
def Obligations.LoadToFlag : Prop :=
  ∀ (ea : Ea) (s : State) (v : Word), s.value ea = .ok v →
    ∃ t, exec (Instr.ofEa .ld .flag ea) s = .next t ∧
      t.flag.toWord = (if s.flag.p then v &&& 0x00EF else (s.flag.toWord &&& 0x00E0) ||| (v &&& 0x000F)) ∧
      RegistersKept s t ∧ t.pc = s.pc + eaBytes ea ∧ MemoryKept s t ∧ SystemAndTraceKept s t

/-- R97: the value of each of the eight operand forms, wherever its access can be made. (Rests on: the byte order is
decision D1 (log 30), the zero extension D11 (log 31); the premise that a word address is even keeps out
MISALIGNED_WORD (log 6).) -/
def Obligations.OperandValues : Prop :=
  ∀ (s : State) (w : Word) (n : BitVec 4) (r : Reg),
    (s.wordReadable w → s.value (.mem (.drct w)) = .ok (s.byteAt w ++ s.byteAt (w + 1))) ∧
    (s.wordReadable (w + s.readReg r) → s.value (.mem (.index w r)) = .ok (s.wordAt (w + s.readReg r))) ∧
    s.value (.imm w) = .ok w ∧
    (s.wordReadable (n.signExtend 16 * 2 + s.readReg (.gen .fp)) →
      s.value (.mem (.fpRlt (dsp4Of n))) = .ok (s.wordAt (n.signExtend 16 * 2 + s.readReg (.gen .fp)))) ∧
    s.value (.reg r) = .ok (s.readReg r) ∧
    s.value (.imm4 (imm4Of n)) = .ok (n.signExtend 16) ∧
    (s.wordReadable (s.readReg r) → s.value (.mem (.indr r)) = .ok (s.wordAt (s.readReg r))) ∧
    (s.mmuOn = false → s.value (.mem (.bIndr r)) = .ok ((s.byteAt (s.readReg r)).setWidth 16))

/-- R133: ST stores Rd as a word at the address (modes 0, 1, 3, 6), or its low byte there (mode 7), and changes nothing
else. (Rests on: the byte stored is decision D11 (log 31), the byte order D1 (log 30); the IPL region is left out by
decision D29 (log 23).) -/
def Obligations.StoreWritesMemory : Prop :=
  ∀ (rd : Reg) (m : MemEa) (s : State),
    (isByteForm m = false → s.wordWritable (s.addr m) →
      ∃ t, exec (Instr.ofSt rd m) s = .next t ∧ t.wordAt (s.addr m) = s.readReg rd ∧
        MemoryKeptButWord (s.addr m) s t ∧ RegistersKept s t ∧ t.flag = s.flag ∧ t.pc = s.pc + memEaBytes m ∧
        SystemAndTraceKept s t) ∧
    (isByteForm m = true → s.byteWritable (s.addr m) →
      ∃ t, exec (Instr.ofSt rd m) s = .next t ∧ t.byteAt (s.addr m) = (s.readReg rd).extractLsb' 0 8 ∧
        (∀ a, a ≠ s.addr m → t.byteAt a = s.byteAt a) ∧ RegistersKept s t ∧ t.flag = s.flag ∧
        t.pc = s.pc + memEaBytes m ∧ SystemAndTraceKept s t)

/-! ### Arithmetic and logic (41_arith_logic.md) -/

/-- R152: ADD: the sum modulo 2^16, Z and S from it, C the carry out of bit 15, V signed overflow. (Rests on: the
formulas of the flags are decision D6 (log 44).) -/
def Obligations.AddResult : Prop :=
  ∀ (rd : Reg) (ea : Ea) (s : State) (b : Word), rd ≠ .flag → s.value ea = .ok b →
    ∃ t, exec (Instr.ofEa .add rd ea) s = .next t ∧
      (let a := s.readReg rd
       let r := a + b
       t.peek (homeOf rd s.flag.p) = r ∧
       t.flag = s.flag.withVCSZ ((a.getLsbD 15 == b.getLsbD 15) && (r.getLsbD 15 != a.getLsbD 15))
         (decide (2 ^ 16 ≤ a.toNat + b.toNat)) (r.getLsbD 15) (decide (r = 0))) ∧
      RegistersKeptBut (homeOf rd s.flag.p) s t ∧ t.pc = s.pc + eaBytes ea ∧ MemoryKept s t ∧ SystemAndTraceKept s t

/-- R153: SUB: the difference modulo 2^16, Z and S from it, C the borrow, V signed overflow. (Rests on: the formulas of
the flags are decision D6 (log 44).) -/
def Obligations.SubResult : Prop :=
  ∀ (rd : Reg) (ea : Ea) (s : State) (b : Word), rd ≠ .flag → s.value ea = .ok b →
    ∃ t, exec (Instr.ofEa .sub rd ea) s = .next t ∧
      (let a := s.readReg rd
       let r := a - b
       t.peek (homeOf rd s.flag.p) = r ∧
       t.flag = s.flag.withVCSZ ((a.getLsbD 15 != b.getLsbD 15) && (r.getLsbD 15 != a.getLsbD 15))
         (decide (a.toNat < b.toNat)) (r.getLsbD 15) (decide (r = 0))) ∧
      RegistersKeptBut (homeOf rd s.flag.p) s t ∧ t.pc = s.pc + eaBytes ea ∧ MemoryKept s t ∧ SystemAndTraceKept s t

/-- R154: CMP: the flags of SUB, no register written. After it Z = 1 iff a = b, C = 1 iff u(a) < u(b), and S xor V = 1
iff s(a) < s(b). (Rests on: the formulas of the flags are decision D6 (log 44).) -/
def Obligations.CmpResult : Prop :=
  ∀ (rd : Reg) (ea : Ea) (s : State) (b : Word), rd ≠ .flag → s.value ea = .ok b →
    ∃ t, exec (Instr.ofEa .cmp rd ea) s = .next t ∧
      (let a := s.readReg rd
       let r := a - b
       t.flag = s.flag.withVCSZ ((a.getLsbD 15 != b.getLsbD 15) && (r.getLsbD 15 != a.getLsbD 15))
         (decide (a.toNat < b.toNat)) (r.getLsbD 15) (decide (r = 0)) ∧
       (t.flag.z = true ↔ a = b) ∧ (t.flag.c = true ↔ a.toNat < b.toNat) ∧
       ((t.flag.s ^^ t.flag.v) = true ↔ a.toInt < b.toInt)) ∧
      RegistersKept s t ∧ t.pc = s.pc + eaBytes ea ∧ MemoryKept s t ∧ SystemAndTraceKept s t

/-- R155, R156, R157: AND, OR and XOR: the bitwise result, Z and S from it; C and V are free and not stated. (Rests on:
Z and S are decision D6 (log 44); C and V are free values, decision D7 (log 8).) -/
def Obligations.LogicResults : Prop :=
  ∀ (op : EaOp) (f : Word → Word → Word),
    (op = .and ∧ f = (· &&& ·)) ∨ (op = .or ∧ f = (· ||| ·)) ∨ (op = .xor ∧ f = (· ^^^ ·)) →
  ∀ (rd : Reg) (ea : Ea) (s : State) (b : Word), rd ≠ .flag → s.value ea = .ok b →
    ∃ t, exec (Instr.ofEa op rd ea) s = .next t ∧
      t.peek (homeOf rd s.flag.p) = f (s.readReg rd) b ∧
      t.flag.z = decide (f (s.readReg rd) b = 0) ∧ t.flag.s = (f (s.readReg rd) b).getLsbD 15 ∧ ModeKept s t ∧
      RegistersKeptBut (homeOf rd s.flag.p) s t ∧ t.pc = s.pc + eaBytes ea ∧ MemoryKept s t ∧ SystemAndTraceKept s t

/-- R158, R159: ADDS and MUL: `(u(a) + 2 * u(b)) mod 2^16` and `(u(a) * u(b)) mod 2^16`, Z and S from the result; C and
V are free and not stated. (Rests on: Z and S are decision D6 (log 44); C and V are free values, decision D7 (log
8).) -/
def Obligations.ScaleAndMultiplyResults : Prop :=
  ∀ (op : EaOp) (f : Nat → Nat → Nat),
    (op = .adds ∧ f = fun x y => x + 2 * y) ∨ (op = .mul ∧ f = fun x y => x * y) →
  ∀ (rd : Reg) (ea : Ea) (s : State) (b : Word), rd ≠ .flag → s.value ea = .ok b →
    ∃ t, exec (Instr.ofEa op rd ea) s = .next t ∧
      (let r := t.peek (homeOf rd s.flag.p)
       r.toNat = f (s.readReg rd).toNat b.toNat % 2 ^ 16 ∧
       t.flag.z = decide (r = 0) ∧ t.flag.s = r.getLsbD 15) ∧ ModeKept s t ∧
      RegistersKeptBut (homeOf rd s.flag.p) s t ∧ t.pc = s.pc + eaBytes ea ∧ MemoryKept s t ∧ SystemAndTraceKept s t

/-- R160, R161: DIV and MOD by a divisor other than 0: the quotient and the remainder where both operands are in 0000h
to 7FFFh, the configuration function of the two operands otherwise; Z and S from the result; C and V are free. (Rests
on: the range of the defined result is decision D9 (log 10); C and V are free values, decision D7 (log 8); Z and S are
decision D6 (log 44).) -/
def Obligations.DivideResults : Prop :=
  ∀ (op : EaOp) (f : Nat → Nat → Nat) (g : Word → Word → Word),
    (op = .div ∧ f = (· / ·) ∧ g = Config.divFn) ∨ (op = .mod ∧ f = (· % ·) ∧ g = Config.modFn) →
  ∀ (rd : Reg) (ea : Ea) (s : State) (b : Word), rd ≠ .flag → s.value ea = .ok b → b ≠ 0 →
    ∃ t, exec (Instr.ofEa op rd ea) s = .next t ∧
      (let a := s.readReg rd
       let r := t.peek (homeOf rd s.flag.p)
       (if a.toNat < 2 ^ 15 ∧ b.toNat < 2 ^ 15 then r.toNat = f a.toNat b.toNat else r = g a b) ∧
       t.flag.z = decide (r = 0) ∧ t.flag.s = r.getLsbD 15) ∧ ModeKept s t ∧
      RegistersKeptBut (homeOf rd s.flag.p) s t ∧ t.pc = s.pc + eaBytes ea ∧ MemoryKept s t ∧ SystemAndTraceKept s t

/-- R303, R160, R161: DIV and MOD whose second operand is 0000h take `ZeroDivide` (vector 12): Rd is unchanged, V, C,
S, Z of the saved FLAG are free, E, P and I of it are as before, and the saved pc follows FAULT_SAVED_PC. (Rests on:
the free flags are decision D10 (log 11), the frame D12 (log 27), the saved pc D13 (log 12).) -/
def Obligations.DivideByZeroTraps : Prop :=
  ∀ (op : EaOp), op = .div ∨ op = .mod →
  ∀ (rd : Reg) (ea : Ea) (s : State), rd ≠ .flag → s.value ea = .ok 0 → s.frameWritable →
    ∃ t pc v c n z, exec (Instr.ofEa op rd ea) s = .next t ∧
      TrapTaken 12 pc (s.flag.withVCSZ v c n z).toWord s t ∧ t.flag = (s.flag.withVCSZ v c n z).enterTrap ∧
      (s.params.zeroDividePc = .this → pc = s.pc) ∧ (s.params.zeroDividePc = .next → pc = s.pc + eaBytes ea) ∧
      SystemAndTraceKept s t

/-- R150, R180: FLAG as Rd of a flag-changing instruction is refused, in every mode. (Rests on: the refusal is decision
D27 (log 26).) -/
def Obligations.FlagDestinationRefused : Prop :=
  ∀ (op : EaOp) (ea : Ea) (s : State), op ≠ .ld → exec (Instr.ofEa op .flag ea) s = .refused .flagDestination

/-- R162: overflow is "reported in V (signed) and C (unsigned) by ADD, SUB, CMP": V of ADD and of SUB says exactly that
the signed result is outside the 16-bit range, C of ADD that the unsigned sum is, C of SUB that the difference is
negative. (Rests on: R162 is the spec's own summary of formulas that are decision D6 (log 44).) -/
def Obligations.OverflowFlagsMeanOverflow : Prop :=
  ∀ (rd : Reg) (ea : Ea) (s : State) (b : Word), rd ≠ .flag → s.value ea = .ok b →
    let a := s.readReg rd
    (∃ t, exec (Instr.ofEa .add rd ea) s = .next t ∧
      (t.flag.v = true ↔ a.toInt + b.toInt < -32768 ∨ 32767 < a.toInt + b.toInt) ∧
      (t.flag.c = true ↔ 65535 < a.toNat + b.toNat)) ∧
    ∃ t, exec (Instr.ofEa .sub rd ea) s = .next t ∧
      (t.flag.v = true ↔ a.toInt - b.toInt < -32768 ∨ 32767 < a.toInt - b.toInt) ∧
      (t.flag.c = true ↔ (a.toNat : Int) - b.toNat < 0)

/-! ### Shifts (42_shift.md) -/

/-- R181, R182: SHLA and SHLL by 0 to 15: `(u(a) * 2^n) mod 2^16`; Z and S from the result, C and V free. (Rests on: Z
and S are decision D6 (log 44); C and V are free values, decision D7 (log 8).) -/
def Obligations.ShiftLeftResults : Prop :=
  ∀ (op : EaOp), op = .shla ∨ op = .shll →
  ∀ (rd : Reg) (ea : Ea) (s : State) (n : Word), rd ≠ .flag → s.value ea = .ok n → n.toNat ≤ 15 →
    ∃ t, exec (Instr.ofEa op rd ea) s = .next t ∧
      (let r := t.peek (homeOf rd s.flag.p)
       r.toNat = (s.readReg rd).toNat * 2 ^ n.toNat % 2 ^ 16 ∧ t.flag.z = decide (r = 0) ∧ t.flag.s = r.getLsbD 15) ∧
      ModeKept s t ∧ RegistersKeptBut (homeOf rd s.flag.p) s t ∧ t.pc = s.pc + eaBytes ea ∧ MemoryKept s t ∧
      SystemAndTraceKept s t

/-- R183, R184: SHRA and SHRL by 0 to 15: `floor(s(a) / 2^n)` and `floor(u(a) / 2^n)`; Z and S from the result, C and V
free. (Rests on: Z and S are decision D6 (log 44); C and V are free values, decision D7 (log 8).) -/
def Obligations.ShiftRightResults : Prop :=
  ∀ (rd : Reg) (ea : Ea) (s : State) (n : Word), rd ≠ .flag → s.value ea = .ok n → n.toNat ≤ 15 →
    (∃ t, exec (Instr.ofEa .shra rd ea) s = .next t ∧
      (let r := t.peek (homeOf rd s.flag.p)
       r.toInt = (s.readReg rd).toInt / 2 ^ n.toNat ∧ t.flag.z = decide (r = 0) ∧ t.flag.s = r.getLsbD 15) ∧
      ModeKept s t ∧ RegistersKeptBut (homeOf rd s.flag.p) s t ∧ t.pc = s.pc + eaBytes ea ∧ MemoryKept s t ∧
      SystemAndTraceKept s t) ∧
    ∃ t, exec (Instr.ofEa .shrl rd ea) s = .next t ∧
      (let r := t.peek (homeOf rd s.flag.p)
       r.toNat = (s.readReg rd).toNat / 2 ^ n.toNat ∧ t.flag.z = decide (r = 0) ∧ t.flag.s = r.getLsbD 15) ∧
      ModeKept s t ∧ RegistersKeptBut (homeOf rd s.flag.p) s t ∧ t.pc = s.pc + eaBytes ea ∧ MemoryKept s t ∧
      SystemAndTraceKept s t

/-- R180: a shift by 16 or more completes; only Rd, V, C, S and Z (free values) and pc change. (Rests on: the free
result is decision D8 (log 9).) -/
def Obligations.ShiftByLargeCountCompletes : Prop :=
  ∀ (op : EaOp), op = .shla ∨ op = .shll ∨ op = .shra ∨ op = .shrl →
  ∀ (rd : Reg) (ea : Ea) (s : State) (n : Word), rd ≠ .flag → s.value ea = .ok n → 16 ≤ n.toNat →
    ∃ t, exec (Instr.ofEa op rd ea) s = .next t ∧ ModeKept s t ∧ RegistersKeptBut (homeOf rd s.flag.p) s t ∧
      t.pc = s.pc + eaBytes ea ∧ MemoryKept s t ∧ SystemAndTraceKept s t

/-! ### Jumps and CALL (43_jump_call.md) -/

/-- R202, R210, R212 (with R203 to R205, R211, R213, R216): the jumps on one flag and JMP, in both modes: their words,
and that each goes to Dsp, or Dsp plus the content of Rx modulo 2^16, where its condition holds, else to the next
instruction, and changes nothing but pc. -/
def Obligations.JumpsOnOneFlag : Prop :=
  ∀ (rx : BitVec 4) (dsp : Word) (s : State),
    let r := Reg.ofNibble rx
    let f := s.flag
    let jumps (rd : BitVec 4) (direct index : Instr) (c : Bool) : Prop :=
      decode (0xA0#8 ++ rd ++ 0#4 : Word) dsp = .instr direct ∧ decode (0xA1#8 ++ rd ++ rx : Word) dsp = .instr index ∧
      exec direct s = .next (s.goto (if c then dsp else s.pc + 4)) ∧
      exec index s = .next (s.goto (if c then dsp + s.readReg r else s.pc + 4))
    jumps 0x0 (.jzDrct dsp) (.jzIndex r dsp) f.z ∧
    jumps 0x1 (.jcDrct dsp) (.jcIndex r dsp) f.c ∧
    jumps 0x2 (.jmDrct dsp) (.jmIndex r dsp) f.s ∧
    jumps 0x3 (.joDrct dsp) (.joIndex r dsp) f.v ∧
    jumps 0x8 (.jnzDrct dsp) (.jnzIndex r dsp) (!f.z) ∧
    jumps 0x9 (.jncDrct dsp) (.jncIndex r dsp) (!f.c) ∧
    jumps 0xA (.jnmDrct dsp) (.jnmIndex r dsp) (!f.s) ∧
    jumps 0xB (.jnoDrct dsp) (.jnoIndex r dsp) (!f.v) ∧
    jumps 0xF (.jmpDrct dsp) (.jmpIndex r dsp) true

/-- R206 to R209, R214, R215: the jumps on a relation, in both modes, likewise: JGT where neither Z nor S xor V, JGE
where not S xor V, JLE where Z or S xor V, JLT where S xor V, JHI where neither Z nor C, JLS where Z or C. -/
def Obligations.JumpsOnRelation : Prop :=
  ∀ (rx : BitVec 4) (dsp : Word) (s : State),
    let r := Reg.ofNibble rx
    let f := s.flag
    let jumps (rd : BitVec 4) (direct index : Instr) (c : Prop) [Decidable c] : Prop :=
      decode (0xA0#8 ++ rd ++ 0#4 : Word) dsp = .instr direct ∧ decode (0xA1#8 ++ rd ++ rx : Word) dsp = .instr index ∧
      exec direct s = .next (s.goto (if c then dsp else s.pc + 4)) ∧
      exec index s = .next (s.goto (if c then dsp + s.readReg r else s.pc + 4))
    jumps 0x4 (.jgtDrct dsp) (.jgtIndex r dsp) (¬ (f.z = true ∨ f.s ≠ f.v)) ∧
    jumps 0x5 (.jgeDrct dsp) (.jgeIndex r dsp) (f.s = f.v) ∧
    jumps 0x6 (.jleDrct dsp) (.jleIndex r dsp) (f.z = true ∨ f.s ≠ f.v) ∧
    jumps 0x7 (.jltDrct dsp) (.jltIndex r dsp) (f.s ≠ f.v) ∧
    jumps 0xC (.jhiDrct dsp) (.jhiIndex r dsp) (f.z = false ∧ f.c = false) ∧
    jumps 0xE (.jlsDrct dsp) (.jlsIndex r dsp) (f.z = true ∨ f.c = true)

/-- R201: after `CMP a,b` each jump of the comparison table jumps exactly on its relation, signed or unsigned. (Rests
on: that the table is about CMP then the jump is the spec's inference in R201; the flags are decision D6 (log 44).) -/
def Obligations.CompareThenJump : Prop :=
  ∀ (rd : Reg) (ea : Ea) (s : State) (b dsp : Word), rd ≠ .flag → s.value ea = .ok b →
    ∃ t, exec (Instr.ofEa .cmp rd ea) s = .next t ∧
      let a := s.readReg rd
      let go (p : Bool) : Result := .next (t.goto (if p then dsp else t.pc + 4))
      exec (.jgtDrct dsp) t = go (decide (a.toInt > b.toInt)) ∧
      exec (.jgeDrct dsp) t = go (decide (a.toInt ≥ b.toInt)) ∧
      exec (.jzDrct dsp) t = go (decide (a = b)) ∧
      exec (.jnzDrct dsp) t = go (decide (a ≠ b)) ∧
      exec (.jleDrct dsp) t = go (decide (a.toInt ≤ b.toInt)) ∧
      exec (.jltDrct dsp) t = go (decide (a.toInt < b.toInt)) ∧
      exec (.jhiDrct dsp) t = go (decide (a.toNat > b.toNat)) ∧
      exec (.jncDrct dsp) t = go (decide (a.toNat ≥ b.toNat)) ∧
      exec (.jlsDrct dsp) t = go (decide (a.toNat ≤ b.toNat)) ∧
      exec (.jcDrct dsp) t = go (decide (a.toNat < b.toNat))

/-- R217: CALL pushes the address of the next instruction and goes to the effective address, computed before SP
changes. (Rests on: the stack discipline is decision D4, the pushed pc D5 (log 32).) -/
def Obligations.CallPushesReturnAddress : Prop :=
  ∀ (m : MemEa) (i : Instr) (s : State), callRow m = some i → s.wordWritable (s.readReg .sp - 2) →
    ∃ t, exec i s = .next t ∧ t.pc = s.addr m ∧ t.readReg .sp = s.readReg .sp - 2 ∧
      t.wordAt (s.readReg .sp - 2) = s.pc + 4 ∧ MemoryKeptButWord (s.readReg .sp - 2) s t ∧
      RegistersKeptBut (homeOf .sp s.flag.p) s t ∧ t.flag = s.flag ∧ SystemAndTraceKept s t

/-- R217, R243: RET right after CALL goes to the instruction after the CALL and restores SP. (Rests on: the stack
discipline is decision D4, the pushed pc D5 (log 32).) -/
def Obligations.CallThenRet : Prop :=
  ∀ (m : MemEa) (i : Instr) (s t : State), callRow m = some i → s.wordWritable (s.readReg .sp - 2) →
    exec i s = .next t →
    ∃ u, exec .ret t = .next u ∧ u.pc = s.pc + 4 ∧ RegistersKept s u ∧ u.flag = s.flag

/-! ### IN and OUT (44_in_out.md) -/

/-- R231, R232: IN, with P = 1 or I = 1 and an address in the I/O space, makes exactly one read: one event with the
address, the width and the value, that value in Rd, and nothing else changed but the two MMU registers that a read of
A4h to A7h presents. (Rests on: the privilege check is decision D15 (log 28), the free answer D34 (log 20); that the
ports A4h to A7h latch what they presented is the model's own choice (log 19).) -/
def Obligations.InDeliversOneRead : Prop :=
  ∀ (rd : Reg) (m : MemEa) (i : Instr) (s : State), inRow rd m = some i →
    (s.flag.p = true ∨ s.flag.i = true) → ioAccess m (s.addr m) →
    ∃ t v, exec i s = .next t ∧
      t.trace = ⟨.input, s.addr m, if isByteForm m then 1 else 2, v⟩ :: s.trace ∧
      (isByteForm m = true → v.toNat < 256) ∧
      (rd ≠ .flag → t.peek (homeOf rd s.flag.p) = v ∧ t.flag = s.flag) ∧
      (rd = .flag → t.flag = s.flag.write v) ∧
      RegistersKeptBut (homeOf rd s.flag.p) s t ∧ t.pc = s.pc + memEaBytes m ∧ MemoryKept s t ∧
      SystemKept ({ s with mmuCause := t.mmuCause, faultPage := t.faultPage } : State) t ∧
      ((s.addr m).toNat < 0xA4 ∨ 0xA7 < (s.addr m).toNat → SystemKept s t)

/-- R232, R57: what an IN of a word or a byte delivers at each port byte, where the map or the machine's own registers
fix it: the "00H" bytes read 00h, and so do 33h and 35h, whose read side is "00H" (R356); bits 5 to 0 of the three
serial status registers (R352), bits 5 to 1 of uSD-Stat (R353), bits 7 to 3 of the mode register (R354), bits 7 to 4 of
RN4020-Cmd (R355), bits 7 to 5 of the rotary switch and bits 7 to 4 of the function register (R362) are 0; the three
bytes of TLB[n] read back, but for its bits 14 and 13 (R70, R71). (Rests on: the privilege check is D15 (log 28), the
order of a word's two bytes D1 (log 30); the answer within the fixed bits is free, D28 and D34 (log 20); that the bytes
at 80h + 4n read 00h and the place of PAGE are R70's own analogy, marked there as derived, and the read-back of the TLB
and its free bits 14 and 13 are log 18; the three serial layouts are R352's own derivation; a byte of a 16-bit port
read alone is log 42.) -/
def Obligations.InFixedBits : Prop :=
  ∀ (rd : Reg) (m : MemEa) (i : Instr) (s : State), inRow rd m = some i → s.ioAdmits m →
    ∃ t v, exec i s = .next t ∧
      t.trace = ⟨.input, s.addr m, if isByteForm m then 1 else 2, v⟩ :: s.trace ∧
      ∀ p x, accessByte m (s.addr m) v p = some x →
        ((0x08 ≤ p ∧ p < 0x12 ∨ 0x18 ≤ p ∧ p < 0x3A) ∧ p % 2 = 0 ∨ p = 0x39 ∨ (0x80 ≤ p ∧ p < 0xA0) ∧ p % 4 = 0 ∨
          p = 0xA0 ∨ p = 0xA2 ∨ p = 0xA8 ∨ p = 0xFC ∨ p = 0xFE ∨ p = 0x33 ∨ p = 0x35 → x = 0) ∧
        (p = 0x0B ∨ p = 0x0F ∨ p = 0x2B → x &&& 0x3F = 0) ∧ (p = 0x11 → x &&& 0x3E = 0) ∧ (p = 0x1F → x &&& 0xF8 = 0) ∧
        (p = 0x2D → x &&& 0xF0 = 0) ∧ (p = 0xFD → x &&& 0xE0 = 0) ∧ (p = 0xFF → x &&& 0xF0 = 0) ∧
        ∀ n, n < 8 →
          (p = 0x81 + 4 * n → x = (s.tlbEntry n).extractLsb' 16 8) ∧
          (p = 0x82 + 4 * n → x &&& 0x9F = (s.tlbEntry n).extractLsb' 8 8 &&& 0x9F) ∧
          (p = 0x83 + 4 * n → x = (s.tlbEntry n).extractLsb' 0 8)

/-- R233, R232: OUT to a port outside the MMU block (80h to A9h), with P = 1 or I = 1: one event with the address, the
width and the value; a device register the write reaches holds it, every other device register is as before; nothing
else changes. (Rests on: the privilege check is decision D15 (log 28), a free port's write without effect D28; the
order of a word's two bytes is D1 (log 30); that a device register holds what was written is the model's choice (log
21), and that a byte OUT to half of a 16-bit port writes that half alone is the model's reading (log 42).) -/
def Obligations.OutToDevice : Prop :=
  ∀ (rd : Reg) (m : MemEa) (i : Instr) (s : State), outRow rd m = some i → s.ioAdmits m → ioWf s.io →
    ((s.addr m).toNat < 0x80 ∨ 0xAA ≤ (s.addr m).toNat) →
    ∃ t, exec i s = .next t ∧
      (∀ p, t.ioReg p = (match portByte p, accessByte m (s.addr m) (s.readReg rd) p with
        | .device _ true, some x => x
        | _, _ => s.ioReg p)) ∧
      t.trace = outEvent m (s.addr m) (s.readReg rd) :: s.trace ∧
      RegistersKept s t ∧ t.flag = s.flag ∧ t.pc = s.pc + memEaBytes m ∧ MemoryKept s t ∧
      SystemKept ({ s with io := t.io } : State) t

/-- R70, R71, R72, R233: an OUT of a word or a byte into the MMU block (80h to A9h), the bytes A1h and A3h apart: each
byte that reaches a byte of a TLB entry (PAGE at 81h + 4n, the lower half at 82h + 4n and 83h + 4n), of the base
register (A4h, A5h) or of the limit register (A6h, A7h) is held there and every other byte of them is as before, but
that a write of A9h (TLB Clear) leaves the TLB open; the event is recorded; nothing else changes. (Rests on: that these
ports are plain storage is decision D23 (log 17); the place of PAGE is R70's own analogy, marked there as derived; a
byte of a 16-bit port written alone is log 42, the order of a word's two bytes D1 (log 30), the privilege check D15
(log 28); what TLB Clear leaves is free (log 18).) -/
def Obligations.OutToMmuRegisters : Prop :=
  ∀ (rd : Reg) (m : MemEa) (i : Instr) (s : State), outRow rd m = some i → s.ioAdmits m →
    0x80 ≤ (s.addr m).toNat → (s.addr m).toNat < 0xAA →
    let written := accessByte m (s.addr m) (s.readReg rd)
    written 0xA1 = none → written 0xA3 = none →
    ∃ t, exec i s = .next t ∧
      (written 0xA9 = none → ∀ k, k < 8 → t.tlbEntry k =
        (written (0x81 + 4 * k)).getD ((s.tlbEntry k).extractLsb' 16 8) ++
        (written (0x82 + 4 * k)).getD ((s.tlbEntry k).extractLsb' 8 8) ++
        (written (0x83 + 4 * k)).getD ((s.tlbEntry k).extractLsb' 0 8)) ∧
      t.base = (written 0xA4).getD (s.base.extractLsb' 8 8) ++ (written 0xA5).getD (s.base.extractLsb' 0 8) ∧
      t.limit = (written 0xA6).getD (s.limit.extractLsb' 8 8) ++ (written 0xA7).getD (s.limit.extractLsb' 0 8) ∧
      t.trace = outEvent m (s.addr m) (s.readReg rd) :: s.trace ∧
      RegistersKept s t ∧ t.flag = s.flag ∧ t.pc = s.pc + memEaBytes m ∧ MemoryKept s t ∧
      SystemKept ({ s with tlb := t.tlb, base := t.base, limit := t.limit } : State) t

/-- R72, R233: an OUT, of a word or a byte, whose byte for A3h (port A2h) has bit 0 or bit 1 set is refused; one whose
byte has both 0 leaves relocation and paging off, is recorded, and changes nothing else. (Rests on: the refusal is
decision D23 (log 17), the privilege check D15 (log 28); that bits 7 to 0 of the port are its byte A3h is D1 (log 30),
and that a byte OUT reaches it alone is log 42.) -/
def Obligations.MmuEnableRefused : Prop :=
  ∀ (rd : Reg) (m : MemEa) (i : Instr) (s : State) (x : Byte), outRow rd m = some i → s.ioAdmits m →
    accessByte m (s.addr m) (s.readReg rd) 0xA3 = some x →
    (x.getLsbD 0 = true ∨ x.getLsbD 1 = true → exec i s = .refused .mmuEnable) ∧
    (x.getLsbD 0 = false → x.getLsbD 1 = false →
      ∃ t, exec i s = .next t ∧ t.mmuOn = false ∧ t.trace = outEvent m (s.addr m) (s.readReg rd) :: s.trace ∧
        RegistersKept s t ∧ t.flag = s.flag ∧ t.pc = s.pc + memEaBytes m ∧ MemoryKept s t ∧
        SystemKept ({ s with relocation := false, paging := false } : State) t)

/-- R304, R230: IN and OUT with P = 0 and I = 0 take `PrivViolation` (vector 13) before any I/O access or register
write. (Rests on: the privileged set is decision D15 (log 28), the frame D12 (log 27), the saved pc D13 (log 12).) -/
def Obligations.IoWithoutPrivilegeTraps : Prop :=
  ∀ (rd : Reg) (m : MemEa) (i : Instr) (s : State), inRow rd m = some i ∨ outRow rd m = some i →
    s.flag.p = false → s.flag.i = false → s.frameWritable →
    ∃ t pc, exec i s = .next t ∧ TrapTaken 13 pc s.flag.toWord s t ∧ t.flag = s.flag.enterTrap ∧
      (s.params.privViolationPc = .this → pc = s.pc) ∧ (s.params.privViolationPc = .next → pc = s.pc + memEaBytes m) ∧
      SystemAndTraceKept s t

/-- R57, R230: an I/O address above 00FFh and a word access at an odd I/O address are refused, each by its name. (Rests
on: both refusals are decisions, D24 and D25 (log 22), made after the privilege check of D15 (log 28).) -/
def Obligations.IoAddressStops : Prop :=
  ∀ (rd : Reg) (m : MemEa) (i : Instr) (s : State), inRow rd m = some i ∨ outRow rd m = some i →
    (s.flag.p = true ∨ s.flag.i = true) →
    (0xFF < (s.addr m).toNat → exec i s = .refused (.ioAddress (s.addr m))) ∧
    ((s.addr m).toNat ≤ 0xFF → isByteForm m = false → (s.addr m).toNat % 2 = 1 →
      exec i s = .refused (.ioOddWord (s.addr m)))

/-- R61, R233: while the IPL ROM is attached E000h to FFFFh reads the ROM and a store there is refused. An OUT, of a
word or a byte, whose byte for A1h (port A0h) has bit 0 set detaches it, and the region is RAM; with bit 0 clear it is
refused after a detach, and changes nothing while the ROM is attached. Where it completes the event is recorded and
nothing else changes. (Rests on: that the ROM covers E000h to FFFFh is the reading of R60 (log 41); the refusals of a
store and of a re-attach are decision D29 (log 23); that writing 0 while it is attached changes nothing is the model's
choice (log 43); the privilege check is D15 (log 28), the port's byte A1h D1 (log 30) and log 42.) -/
def Obligations.IplRegionAndDetach : Prop :=
  (∀ (s : State) (a v : Word), s.iplAttached = true → 0xE000 ≤ a.toNat →
    (∀ m, ({ s with mem := m } : State).byteAt a = s.byteAt a) ∧
    (s.mmuOn = false → s.writeByte a (v.extractLsb' 0 8) = .error (.refuse (.storeToIpl a)) ∧
      (a.toNat % 2 = 0 → s.writeWord a v = .error (.refuse (.storeToIpl a))))) ∧
  ∀ (rd : Reg) (m : MemEa) (i : Instr) (s : State) (x : Byte), outRow rd m = some i → s.ioAdmits m →
    accessByte m (s.addr m) (s.readReg rd) 0xA1 = some x →
    (x.getLsbD 0 = false → s.iplAttached = false → exec i s = .refused .iplReattach) ∧
    (x.getLsbD 0 = true ∨ s.iplAttached = true →
      ∃ t, exec i s = .next t ∧ t.iplAttached = !x.getLsbD 0 ∧ (x.getLsbD 0 = true → ∀ b, t.iplCovers b = false) ∧
        t.trace = outEvent m (s.addr m) (s.readReg rd) :: s.trace ∧ t.mem = s.mem ∧
        RegistersKept s t ∧ t.flag = s.flag ∧ t.pc = s.pc + memEaBytes m ∧
        SystemKept ({ s with iplAttached := t.iplAttached } : State) t)

/-! ### Stack and return (45_stack_return.md) -/

/-- R241, R240: PUSH of a register that is not the stack pointer: SP is 2 lower and the register is the word there.
(Rests on: the stack discipline is decision D4 (log 32).) -/
def Obligations.PushStoresRegister : Prop :=
  ∀ (rd : Reg) (s : State), s.namesSp rd = false → s.wordWritable (s.readReg .sp - 2) →
    ∃ t, exec (.push rd) s = .next t ∧ t.readReg .sp = s.readReg .sp - 2 ∧
      t.wordAt (s.readReg .sp - 2) = s.readReg rd ∧ MemoryKeptButWord (s.readReg .sp - 2) s t ∧
      RegistersKeptBut (homeOf .sp s.flag.p) s t ∧ t.flag = s.flag ∧ t.pc = s.pc + 2 ∧ SystemAndTraceKept s t

/-- R242, R240: POP into a register that is not the stack pointer: it receives the word at SP, and the stack pointer
that was read is 2 higher; POP FLAG is `FlagWrite`. (Rests on: the stack discipline is decision D4 (log 32).) -/
def Obligations.PopLoadsRegister : Prop :=
  ∀ (rd : Reg) (s : State), s.namesSp rd = false → s.wordReadable (s.readReg .sp) →
    ∃ t, exec (.pop rd) s = .next t ∧ t.peek (homeOf .sp s.flag.p) = s.readReg .sp + 2 ∧
      (rd ≠ .flag → t.peek (homeOf rd s.flag.p) = s.wordAt (s.readReg .sp) ∧ t.flag = s.flag) ∧
      (rd = .flag → t.flag = s.flag.write (s.wordAt (s.readReg .sp))) ∧
      (∀ g, g ≠ homeOf .sp s.flag.p → g ≠ homeOf rd s.flag.p → g ≠ .flag → t.peek g = s.peek g) ∧
      t.pc = s.pc + 2 ∧ MemoryKept s t ∧ SystemAndTraceKept s t

/-- R241, R242: PUSH and POP of the stack pointer (number Dh, and in user mode Eh) are refused; PUSH USP and POP USP in
privileged mode are not. (Rests on: the refusals are decision D27 (log 26).) -/
def Obligations.PushPopOfStackPointer : Prop :=
  ∀ s : State,
    exec (.push .sp) s = .refused .pushSp ∧ exec (.pop .sp) s = .refused .popSp ∧
    (s.flag.p = false → exec (.push .usp) s = .refused .pushSp ∧ exec (.pop .usp) s = .refused .popSp) ∧
    (s.flag.p = true → exec (.push .usp) s ≠ .refused .pushSp ∧ exec (.pop .usp) s ≠ .refused .popSp)

/-- R243: RET, the word D000h, goes to the word at SP and raises SP by 2; an exception of the stack read is taken with
nothing else done. (Rests on: the stack discipline is decision D4 (log 32).) -/
def Obligations.RetPopsPc : Prop :=
  (∀ w2, decode 0xD000 w2 = .instr .ret) ∧
  ∀ s : State,
    (s.wordReadable (s.readReg .sp) →
      ∃ t, exec .ret s = .next t ∧ t.pc = s.wordAt (s.readReg .sp) ∧ t.readReg .sp = s.readReg .sp + 2 ∧
        RegistersKeptBut (homeOf .sp s.flag.p) s t ∧ t.flag = s.flag ∧ MemoryKept s t ∧ SystemAndTraceKept s t) ∧
    (∀ x, s.readWord (s.readReg .sp) = .error (.raise x) → exec .ret s = s.raise x (s.pc + 2))

/-- R246: RETI takes FLAG from the word at SP and pc from the word above it; the stack pointer selected before the
instruction is 4 higher; all of E, P, I, V, C, S, Z change in privileged mode and only V, C, S, Z in user mode. (Rests
on: one stack pointer for both pops is decision D26 (log 32).) -/
def Obligations.RetiRestoresFlagAndPc : Prop :=
  ∀ s : State, s.wordReadable (s.readReg .sp) → s.wordReadable (s.readReg .sp + 2) →
    ∃ t, exec .reti s = .next t ∧ t.pc = s.wordAt (s.readReg .sp + 2) ∧
      t.peek (homeOf .sp s.flag.p) = s.readReg .sp + 4 ∧
      t.flag.toWord = (if s.flag.p then s.wordAt (s.readReg .sp) &&& 0x00EF
        else (s.flag.toWord &&& 0x00E0) ||| (s.wordAt (s.readReg .sp) &&& 0x000F)) ∧
      RegistersKeptBut (homeOf .sp s.flag.p) s t ∧ MemoryKept s t ∧ SystemAndTraceKept s t

/-! ### SVC and HALT (46_system.md) -/

/-- R260, R306: SVC, in either mode, takes the exception `Svc` (vector 15): the saved pc is the address after the SVC,
V, C, S, Z and I are kept. (Rests on: the frame is decision D12 (log 27), the saved pc D13.) -/
def Obligations.SvcTraps : Prop :=
  ∀ s : State, s.frameWritable →
    ∃ t, exec .svc s = .next t ∧ TrapTaken 15 (s.pc + 2) s.flag.toWord s t ∧ t.flag = s.flag.enterTrap ∧
      SystemAndTraceKept s t

/-- R262, R304: HALT in privileged mode halts with pc after the HALT, and nothing else changes; in user mode, whatever
I is, it takes `PrivViolation` (vector 13); a halted machine stays as it is at every step. (Rests on: the privilege is
decision D15 (log 28), the final halt D20 (log 16), the trap frame D12 (log 27), the saved pc D13 (log 12).) -/
def Obligations.HaltStopsTheMachine : Prop :=
  (∀ s : State, s.flag.p = true → exec .halt s = .next { s with halted := true, pc := s.pc + 2 }) ∧
  (∀ s : State, s.flag.p = false → s.frameWritable →
    ∃ t pc, exec .halt s = .next t ∧ TrapTaken 13 pc s.flag.toWord s t ∧ t.flag = s.flag.enterTrap ∧
      (s.params.privViolationPc = .this → pc = s.pc) ∧ (s.params.privViolationPc = .next → pc = s.pc + 2) ∧
      SystemAndTraceKept s t) ∧
  ∀ s : State, s.halted = true → step s = .next s

/-! ### Exceptions and interrupts (60_exceptions.md) -/

/-- R320: trap entry with any vector and any saved pc, wherever its frame can be pushed; where its own push raises (an
odd SSP under MISALIGNED_WORD = mem_violation), it is refused, and so is an SVC then. (Rests on: the entry sequence and
the refusal of an exception during it are decision D12 (log 27), MISALIGNED_WORD is D2 (log 6); that an odd SSP raises
before a push into the IPL region is refused is the model's choice (log 45).) -/
def Obligations.TrapEntryFrame : Prop :=
  ∀ (s : State) (n : Nat) (pc : Word),
    (s.frameWritable →
      ∃ t, s.trapEntry n pc = .next t ∧ TrapTaken n pc s.flag.toWord s t ∧ t.flag = s.flag.enterTrap ∧
        SystemAndTraceKept s t) ∧
    (s.mmuOn = false → s.ssp.toNat % 2 = 1 → s.params.misaligned = .memViolation →
      s.trapEntry n pc = .refused .faultDuringTrapEntry ∧ exec .svc s = .refused .faultDuringTrapEntry)

/-- R325: RETI in privileged mode at the end of a handler, with SSP where trap entry left it and the frame as it was
pushed, restores E, P, I, V, C, S, Z and pc exactly as trap entry saved them, and SSP; it restores and changes nothing
else. (Rests on: the frame is decision D12 (log 27), RETI's one stack pointer for both pops D26 (log 32).) -/
def Obligations.TrapThenRetiRestores : Prop :=
  ∀ (s t u : State) (n : Nat) (pc : Word), s.frameWritable → s.trapEntry n pc = .next t →
    u.flag.p = true → u.ssp = t.ssp → u.mmuOn = false → u.wordAt u.ssp = t.wordAt t.ssp →
    u.wordAt (u.ssp + 2) = t.wordAt (t.ssp + 2) →
    ∃ w, exec .reti u = .next w ∧ w.pc = pc ∧ w.flag = s.flag ∧ w.ssp = s.ssp ∧ RegistersKeptBut .ssp u w ∧
      MemoryKept u w ∧ SystemAndTraceKept u w

/-- R305, R103, R104: at a quiet step boundary a word whose OP byte is an empty cell takes `UndefinedInstruction`
(vector 14), and one with a reserved field value is refused. (Rests on: both are decision D18 (log 24); the frame is
D12 (log 27), the saved pc D13 (log 12); a quiet boundary is one where no source is enabled (log 46).) -/
def Obligations.WordsThatSpellNoInstruction : Prop :=
  ∀ s : State, s.quiet → s.wordReadable s.pc →
    (decode (s.wordAt s.pc) 0 = .undefined → s.frameWritable →
      ∃ t pc, step s = .next t ∧ TrapTaken 14 pc s.flag.toWord s t ∧ t.flag = s.flag.enterTrap ∧
        (s.params.undefinedPc = .this → pc = s.pc) ∧ (s.params.undefinedPc = .next → pc = s.pc + 2) ∧
        SystemAndTraceKept s t) ∧
    (decode (s.wordAt s.pc) 0 = .reserved → step s = .refused (.reservedField (s.wordAt s.pc)))

/-- R105: at a quiet step boundary the OP bytes A6h and AEh are refused, undefined, or a jump or CALL to the content of
Rx, as JUMP_INDR says. (Rests on: the parameter is decision D19 (log 25); a quiet boundary is one where no source is
enabled (log 46).) -/
def Obligations.OpenOpBytesFollowParameter : Prop :=
  ∀ (s : State) (rd rx : BitVec 4), s.quiet → s.wordReadable s.pc →
    (s.wordAt s.pc = (0xA6#8 ++ rd ++ rx : Word) ∨ s.wordAt s.pc = (0xAE#8 ++ rd ++ rx : Word) →
      (s.params.jumpIndr = .refuse → step s = .refused (.jumpIndr (s.wordAt s.pc))) ∧
      (s.params.jumpIndr = .undefined → step s = s.raise .undefinedInstruction (s.pc + 2))) ∧
    (s.wordAt s.pc = (0xA6#8 ++ rd ++ rx : Word) → s.params.jumpIndr = .jump →
      ∀ k, Cond.ofNibble rd = some k →
        step s = .next (s.goto (if condHolds k s.flag then s.readReg (Reg.ofNibble rx) else s.pc + 2))) ∧
    (s.wordAt s.pc = (0xAE#8 ++ rd ++ rx : Word) → s.params.jumpIndr = .jump → rd = 0 → s.wordWritable (s.readReg .sp - 2) →
      ∃ t, step s = .next t ∧ t.pc = s.readReg (Reg.ofNibble rx) ∧ t.readReg .sp = s.readReg .sp - 2 ∧
        t.wordAt (s.readReg .sp - 2) = s.pc + 2)

/-- R52: a word read or write at an odd address: refused, made at `a and FFFEh`, or `MemViolation`, as MISALIGNED_WORD
says. (Rests on: the parameter is decision D2 (log 6); that an odd address counts before the refusal of a store to the
IPL region is the model's choice (log 45).) -/
def Obligations.OddWordAccess : Prop :=
  ∀ (s : State) (a v : Word), s.mmuOn = false → a.toNat % 2 = 1 →
    (s.params.misaligned = .refuse →
      s.readWord a = .error (.refuse (.misaligned a)) ∧ s.writeWord a v = .error (.refuse (.misaligned a))) ∧
    (s.params.misaligned = .ignoreBit0 →
      s.readWord a = s.readWord (a &&& 0xFFFE) ∧ s.writeWord a v = s.writeWord (a &&& 0xFFFE) v) ∧
    (s.params.misaligned = .memViolation →
      s.readWord a = .error (.raise .memViolation) ∧ s.writeWord a v = .error (.raise .memViolation))

/-- R52, R302, R321: under MISALIGNED_WORD = mem_violation an instruction whose word access lies at an odd address
takes `MemViolation` (vector 11): the eight-mode instructions, ST, and, with an odd SP (which is USP, the trap frame
needing an even SSP), PUSH, POP, RET, RETI and CALL. It has changed nothing itself: no register, no flag, no memory
outside the trap frame, nothing of the memory system and the devices but the recorded cause, and no I/O access. (Rests
on: the parameter is decision D2 (log 6), precision D30 (log 40), the frame D12 (log 27), the saved pc D13 (log 12),
where a push lands D4 (log 32); that mmuCause takes a free value is the model's (log 19), and that an odd address
raises before the store to the IPL region is refused its choice (log 45).) -/
def Obligations.MisalignedAccessTraps : Prop :=
  ∀ s : State, s.params.misaligned = .memViolation → s.frameWritable →
    let traps (i : Instr) (bytes : Word) : Prop :=
      ∃ t pc, exec i s = .next t ∧ TrapTaken 11 pc s.flag.toWord s t ∧ t.flag = s.flag.enterTrap ∧
        (s.params.memViolationPc = .this → pc = s.pc) ∧ (s.params.memViolationPc = .next → pc = s.pc + bytes) ∧
        SystemKept ({ s with mmuCause := t.mmuCause } : State) t ∧ t.trace = s.trace
    (∀ m, isByteForm m = false → (s.addr m).toNat % 2 = 1 →
      (∀ op rd, op = .ld ∨ rd ≠ .flag → traps (Instr.ofEa op rd (.mem m)) (memEaBytes m)) ∧
      ∀ rd, traps (Instr.ofSt rd m) (memEaBytes m)) ∧
    ((s.readReg .sp).toNat % 2 = 1 →
      (∀ rd, s.namesSp rd = false → traps (.push rd) 2 ∧ traps (.pop rd) 2) ∧ traps .ret 2 ∧ traps .reti 2 ∧
      ∀ m i, callRow m = some i → traps i 4)

/-- R50, R51: after a word write at an even address the byte there is its upper half and the next byte its lower half;
after byte writes to an even address and the next, the word there is their concatenation. (Rests on: the byte order is
decision D1 (log 30).) -/
def Obligations.WordAndByteViews : Prop :=
  ∀ (s t : State) (a v : Word), a.toNat % 2 = 0 →
    (s.writeWord a v = .ok t →
      t.readByte a = .ok (v.extractLsb' 8 8) ∧ t.readByte (a + 1) = .ok (v.extractLsb' 0 8)) ∧
    ∀ (u : State) (x y : Byte), s.writeByte a x = .ok t → t.writeByte (a + 1) y = .ok u → u.readWord a = .ok (x ++ y)

/-- R83: a word stored is what the next fetch of that address decodes, alone or with the word after it where it begins
a two-word instruction; and a word stored as the second word of an instruction is the second word its next fetch
decodes. (Rests on: coherence is decision D22, program order D21 (log 35).) -/
def Obligations.StoreSeenByFetch : Prop :=
  ∀ (s t : State) (a v : Word), a.toNat % 2 = 0 →
    (s.writeWord a v = .ok t →
      (hasSecondWord v = false → (t.goto a).fetch = .ok (decode v 0)) ∧
      (hasSecondWord v = true → (t.goto a).fetch = .ok (decode v (s.wordAt (a + 2))))) ∧
    (s.writeWord (a + 2) v = .ok t → hasSecondWord (s.wordAt a) = true →
      (t.goto a).fetch = .ok (decode (s.wordAt a) v))

/-- R330, R312: with E = 0 nothing is taken: the step runs the instruction at pc, after the enabled sources have made
their requests; a source that is not enabled makes none. (Rests on: when a source requests is decision D14 (log 13);
PIO's enable is the model's reading (log 15), and that a source whose enable bit is rewritten to 0 makes no new request
its choice (log 46).) -/
def Obligations.InterruptsMaskedByE : Prop :=
  ∀ s : State, s.halted = false →
    (s.flag.e = false → step s = s.atBoundary.runInstruction) ∧
    (∀ n, n < 10 → s.irqEnabled n = false → s.atBoundary.pending.getLsbD n = s.pending.getLsbD n) ∧
    ∃ p k, s.atBoundary = { s with pending := p, draws := k }

/-- R330, R320: taking device interrupt n clears its request and no other, and enters the trap with the pc of the
instruction not yet started. (Rests on: the frame is decision D12 (log 27), the clearing D14 (log 13).) -/
def Obligations.InterruptTaken : Prop :=
  ∀ (s : State) (n : Nat), n < 10 → s.frameWritable →
    ∃ t, s.takeInterrupt n = .next t ∧ TrapTaken n s.pc s.flag.toWord s t ∧ t.flag = s.flag.enterTrap ∧
      ∀ k, k < 10 → t.pending.getLsbD k = (s.pending.getLsbD k && decide (k ≠ n))

/-- R330, R315: a step of a machine that is not halted either runs the instruction at pc or, with E = 1, takes one
interrupt that is requesting; which of the two, and which interrupt, is free. (Rests on: which and when is free,
decision D14 (log 13, 14).) -/
def Obligations.InterruptOrInstruction : Prop :=
  ∀ s : State, s.halted = false →
    (∃ k, step s = ({ s.atBoundary with draws := k } : State).runInstruction) ∨
    (s.flag.e = true ∧ ∃ n k, n < 10 ∧ s.atBoundary.pending.getLsbD n = true ∧
      step s = ({ s.atBoundary with draws := k } : State).takeInterrupt n)

/-! ### The step, decoding and encoding (00_scope.md R12, 30_encoding.md) -/

/-- R12: at a quiet step boundary the step is the meaning of the instruction that the words at pc decode to; the step
adds nothing around it. (Rests on: the order of a step is decision D30; a quiet boundary is one where no source is
enabled (log 46) and none is taken.) -/
def Obligations.StepRunsDecodedInstruction : Prop :=
  ∀ (s : State) (i : Instr), s.quiet → s.wordReadable s.pc →
    decode (s.wordAt s.pc) (s.wordAt (s.pc + 2)) = .instr i → i.wellFormed = true → step s = exec i s

/-- R91, R100 to R102: every well-formed instruction is what its encoding decodes to. -/
def Obligations.DecodeOfEncode : Prop :=
  ∀ i : Instr, i.wellFormed = true → decodeWords (encode i) = .instr i

/-- R92, R100 to R102: two words that decode to an instruction are its encoding, the second only where the first begins
a two-word instruction; and the instruction is well-formed. So no two instructions share a word. (Rests on: the length
rule R92 is the spec's inference from R91 and R100.) -/
def Obligations.EncodeOfDecode : Prop :=
  ∀ (w1 w2 : Word) (i : Instr), decode w1 w2 = .instr i →
    i.wellFormed = true ∧ encode i = if hasSecondWord w1 then [w1, w2] else [w1]

/-- R103: the OP bytes whose cell in the opcode map is empty, A6h and AEh apart, and only those, are undefined. (Rests
on: what an empty cell means is decision D18 (log 24); that A6h and AEh are apart from the other empty cells is R105,
decision D19 (log 25).) -/
def Obligations.UndefinedOpBytes : Prop :=
  ∀ w1 w2 : Word,
    decode w1 w2 = .undefined ↔
      (let op := (w1.extractLsb' 8 8).toNat
       (0x01 ≤ op ∧ op ≤ 0x07) ∨ op = 0x12 ∨ op = 0x14 ∨ op = 0x15 ∨ (0x68 ≤ op ∧ op ≤ 0x7F) ∨
       (0xA2 ≤ op ∧ op ≤ 0xA7 ∧ op ≠ 0xA6) ∨ (0xAA ≤ op ∧ op ≤ 0xAF ∧ op ≠ 0xAE) ∨ (0xB1 ≤ op ∧ op ≤ 0xB5) ∨
       (0xB9 ≤ op ∧ op ≤ 0xBD) ∨ (0xC1 ≤ op ∧ op ≤ 0xC3) ∨ (0xC5 ≤ op ∧ op ≤ 0xCF) ∨ (0xD1 ≤ op ∧ op ≤ 0xD3) ∨
       (0xD5 ≤ op ∧ op ≤ 0xEF) ∨ (0xF1 ≤ op ∧ op ≤ 0xFE))

/-- R101: with OP A0h and A1h the Rd field selects the jump, by the spec's table; Rd = Dh is no jump. (Rests on: that
condition Dh is refused as a reserved field value and is not undefined is R104, decision D18 (log 24).) -/
def Obligations.JumpConditionsDecode : Prop :=
  ∀ (rx : BitVec 4) (dsp : Word),
    (List.range 16).map (fun c => decode (0xA0#8 ++ BitVec.ofNat 4 c ++ 0#4 : Word) dsp) =
      [.instr (.jzDrct dsp), .instr (.jcDrct dsp), .instr (.jmDrct dsp), .instr (.joDrct dsp), .instr (.jgtDrct dsp),
       .instr (.jgeDrct dsp), .instr (.jleDrct dsp), .instr (.jltDrct dsp), .instr (.jnzDrct dsp), .instr (.jncDrct dsp),
       .instr (.jnmDrct dsp), .instr (.jnoDrct dsp), .instr (.jhiDrct dsp), .reserved, .instr (.jlsDrct dsp),
       .instr (.jmpDrct dsp)] ∧
    (List.range 16).map (fun c => decode (0xA1#8 ++ BitVec.ofNat 4 c ++ rx : Word) dsp) =
      (let r := Reg.ofNibble rx
       [.instr (.jzIndex r dsp), .instr (.jcIndex r dsp), .instr (.jmIndex r dsp), .instr (.joIndex r dsp),
        .instr (.jgtIndex r dsp), .instr (.jgeIndex r dsp), .instr (.jleIndex r dsp), .instr (.jltIndex r dsp),
        .instr (.jnzIndex r dsp), .instr (.jncIndex r dsp), .instr (.jnmIndex r dsp), .instr (.jnoIndex r dsp),
        .instr (.jhiIndex r dsp), .reserved, .instr (.jlsIndex r dsp), .instr (.jmpIndex r dsp)])

/-- The words of the spec's own examples decode to the instructions they stand for. -/
def Obligations.SampleWordsDecode : Prop :=
  decodeWords [0x0D15] = .instr (.ldImm4 (.gen .g1) 5) ∧
  decodeWords [0x0820, 0x1000] = .instr (.ldDrct (.gen .g2) 0x1000) ∧
  decodeWords [0x1612] = .instr (.stIndr (.gen .g1) (.gen .g2)) ∧
  decodeWords [0x3200, 0x00FF] = .instr (.andImm (.gen .g0) 0x00FF) ∧
  decodeWords [0x9512] = .instr (.shraImm4 (.gen .g1) 2) ∧
  decodeWords [0xA080, 0x0104] = .instr (.jnzDrct 0x0104) ∧
  decodeWords [0xB712] = .instr (.inBIndr (.gen .g1) (.gen .g2)) ∧
  decodeWords [0xC420] = .instr (.pop (.gen .g2)) ∧
  decodeWords [0xD4F0] = .instr .reti

/-! ### Registers, FLAG, reset and the invariant (10_state.md) -/

/-- R22, R24: what each register number denotes: 0 to 11 G0 to G11, 12 FP, 13 SSP when P = 1 and USP when P = 0, 14
USP, 15 FLAG. (Rests on: that Eh may be used in user mode is decision D35 (log 39).) -/
def Obligations.RegisterNumbers : Prop :=
  ∀ s : State,
    (List.range 16).map (fun n => s.readReg (Reg.ofNibble (BitVec.ofNat 4 n))) =
      [s.regs.g0, s.regs.g1, s.regs.g2, s.regs.g3, s.regs.g4, s.regs.g5, s.regs.g6, s.regs.g7, s.regs.g8, s.regs.g9,
       s.regs.g10, s.regs.g11, s.regs.fp, if s.flag.p then s.ssp else s.usp, s.usp, s.flag.toWord]

/-- R26, R29: FLAG's word has bits 15 to 8 and bit 4 clear and E, P, I, V, C, S, Z at their places; `FlagWrite` takes
all seven bits in privileged mode and only V, C, S, Z in user mode. (Rests on: FlagWrite in user mode is decision D16
(log 29).) -/
def Obligations.FlagWordAndFlagWrite : Prop :=
  ∀ (f : Flag) (v : Word),
    f.toWord.toNat = f.e.toNat * 0x80 + f.p.toNat * 0x40 + f.i.toNat * 0x20 + f.v.toNat * 0x08 + f.c.toNat * 0x04 +
      f.s.toNat * 0x02 + f.z.toNat * 0x01 ∧
    f.toWord &&& 0xFF10 = 0 ∧
    (f.write v).toWord = if f.p then v &&& 0x00EF else (f.toWord &&& 0x00E0) ||| (v &&& 0x000F)

/-- R35, R400: what reset leaves where the spec gives the value, under every choice of the parameters, and at the first
reset with the recommended ones. A reset of a running machine keeps RN4020-RAM; its IPL ROM is then seen with the bytes
it had. (Rests on: pc, FLAG, halted and pending are decision D17 (log 5), the MMU off D23 (log 17); that the IPL ROM is
E000h to FFFFh is the reading of R60 (log 41); what a reset of a running machine keeps is log 36.) -/
def Obligations.ResetValues : Prop :=
  let leaves (s : State) : Prop :=
    s.pc = s.params.resetPc ∧ s.flag.p = true ∧ s.flag.e = false ∧ s.flag.i = false ∧ s.iplAttached = true ∧
    s.halted = false ∧ s.pending = 0 ∧ s.relocation = false ∧ s.paging = false ∧ s.rn4020Cmd = 0x01
  (∀ p : Config.Params, leaves (State.resetWith p) ∧ (State.resetWith p).params = p ∧
    ∀ a : Word, 0xE000 ≤ a.toNat → (State.resetWith p).byteAt a = Config.iplImage a.toNat) ∧
  State.reset = State.resetWith Config.Params.default ∧ State.reset.pc = 0xE000 ∧
  ∀ s : State, leaves s.afterReset ∧ s.afterReset.params = s.params ∧ s.afterReset.rn4020Ram = s.rn4020Ram ∧
    (s.iplAttached = true → ∀ a : Word, 0xE000 ≤ a.toNat → s.afterReset.byteAt a = s.byteAt a)

/-- The invariant of Safety.lean holds after reset, and is kept by a reset of a running machine. (Rests on: the
canonical form of the memories is the model's (log 3), what a reset keeps log 36.) -/
def Obligations.ResetHasInvariant : Prop := State.reset.Inv ∧ ∀ s : State, s.Inv → s.afterReset.Inv

/-- R61, R72, R32: every step keeps the invariant: canonical memories, relocation and paging off, no value in the RAM
under the attached IPL ROM. And no step changes the parameters of R6. (Rests on: the canonical form of the memories is
the model's (log 3); the MMU stays off by decision D23 (log 17), and stores under the ROM are refused by D29 (log
23).) -/
def Obligations.StepKeepsInvariant : Prop :=
  ∀ s t : State, s.Inv → step s = .next t → t.Inv ∧ t.params = s.params

/-- R340, R24: in user mode a step either keeps E, P, I, SSP and the halt, and without the I flag makes no I/O access,
or it is a trap entry: P set, E cleared, I kept, SSP 4 lower, USP and the general registers kept, pc from the vector
table. (Rests on: FlagWrite in user mode is decision D16 (log 29), the privileged set D15 (log 28), the trap entry D12
(log 27).) -/
def Obligations.UserModeCannotRaisePrivilege : Prop :=
  ∀ s t : State, s.flag.p = false → step s = .next t →
    (ModeKept s t ∧ t.ssp = s.ssp ∧ t.halted = s.halted ∧
      (s.flag.i = false → t.trace = s.trace ∧ t.io = s.io ∧ t.tlb = s.tlb ∧ t.base = s.base ∧ t.limit = s.limit ∧
        t.iplAttached = s.iplAttached)) ∨
    (t.flag.p = true ∧ t.flag.e = false ∧ t.flag.i = s.flag.i ∧ t.ssp = s.ssp - 4 ∧ t.usp = s.usp ∧ t.regs = s.regs ∧
      t.trace = s.trace ∧ t.io = s.io ∧ t.iplAttached = s.iplAttached ∧
      ∃ n, n < 16 ∧ t.pc = t.wordAt (vectorAddress n))
end

