-- ==== Sys2Proof/Laws/Decode.lean ====
section
/-! SUPPORT. The laws of the encoding's fields: a word is its OP byte, Rd and Rx; register numbers and the short fields
read back; decoding a word by its OP byte. -/

namespace Sys2Proof

/-- A concatenation as a number. -/
theorem toNat_append_eq {m n : Nat} (a : BitVec m) (b : BitVec n) : (a ++ b).toNat = a.toNat * 2 ^ n + b.toNat := by
  rw [BitVec.toNat_append, ← Nat.shiftLeft_add_eq_or_of_lt b.isLt, Nat.shiftLeft_eq]

/-- The map's row and column of a word, by its OP byte (30_encoding.md R100). -/
theorem op5Of_eq (w : Word) : op5Of w = (w.extractLsb' 8 8).toNat / 8 := by
  simp only [op5Of, BitVec.extractLsb'_toNat, Nat.shiftRight_eq_div_pow]; omega

theorem modeOf_eq (w : Word) : modeOf w = (w.extractLsb' 8 8).toNat % 8 := by
  simp only [modeOf, BitVec.extractLsb'_toNat, Nat.shiftRight_eq_div_pow]; omega

theorem op5Of_lt (w : Word) : op5Of w < 32 := by
  rw [op5Of_eq]; have := (w.extractLsb' 8 8).isLt; omega

theorem modeOf_lt (w : Word) : modeOf w < 8 := by rw [modeOf_eq]; omega

/-- A word is its OP byte, its Rd field and its Rx field (30_encoding.md R90). -/
theorem word1_fields (w : Word) : word1 (w.extractLsb' 8 8) (rdField w) (rxField w) = w := by
  have := w.isLt
  apply BitVec.eq_of_toNat_eq
  simp only [word1, rdField, rxField, toNat_append_eq, BitVec.extractLsb'_toNat, Nat.shiftRight_eq_div_pow]
  omega

/-- The fields of a word made of its fields. -/
theorem fields_word1 (b : Byte) (rd rx : BitVec 4) :
    op5Of (word1 b rd rx) = b.toNat / 8 ∧ modeOf (word1 b rd rx) = b.toNat % 8 ∧ rdField (word1 b rd rx) = rd ∧
      rxField (word1 b rd rx) = rx := by
  have := b.isLt
  have := rd.isLt
  have := rx.isLt
  have hw : (word1 b rd rx).toNat = (b.toNat * 2 ^ 4 + rd.toNat) * 2 ^ 4 + rx.toNat := by
    simp only [word1, toNat_append_eq]
  refine ⟨?_, ?_, BitVec.eq_of_toNat_eq ?_, BitVec.eq_of_toNat_eq ?_⟩
  all_goals
    simp only [op5Of, modeOf, rdField, rxField, BitVec.extractLsb'_toNat, Nat.shiftRight_eq_div_pow, hw]
    omega

/-- Decoding by the OP byte. -/
theorem decode_word1 (b : Byte) (rd rx : BitVec 4) (w2 : Word) :
    decode (word1 b rd rx) w2 = decodeFields (word1 b rd rx) (b.toNat / 8) (b.toNat % 8) rd rx w2 := by
  obtain ⟨h1, h2, h3, h4⟩ := fields_word1 b rd rx
  rw [decode, h1, h2, h3, h4]

/-- A register number names the register it is the number of, and back (10_state.md R22). -/
@[simp] theorem Reg.nibble_ofNibble (n : BitVec 4) : (Reg.ofNibble n).nibble = n := by revert n; decide

@[simp] theorem Reg.ofNibble_nibble (r : Reg) : Reg.ofNibble r.nibble = r := by
  rcases r with g | _ | _ | _
  · cases g <;> rfl
  all_goals rfl

/-- The short fields read back (30_encoding.md R95, R96). -/
theorem imm4_field (n : BitVec 4) : imm4Fits (imm4Of n) = true ∧ imm4Field (imm4Of n) = n := by revert n; decide

theorem dsp4_field (n : BitVec 4) : dsp4Fits (dsp4Of n) = true ∧ dsp4Field (dsp4Of n) = n := by revert n; decide

theorem imm4_value (n : Int) (h : imm4Fits n = true) : imm4Of (imm4Field n) = n := by
  simp only [imm4Fits, decide_eq_true_eq] at h
  obtain ⟨h1, h2⟩ := h
  interval_cases n <;> decide

theorem dsp4_value (n : Int) (h : dsp4Fits n = true) : dsp4Of (dsp4Field n) = n := by
  simp only [dsp4Fits, decide_eq_true_eq] at h
  obtain ⟨h1, h2, h3⟩ := h
  interval_cases n <;> first | omega | decide

end Sys2Proof
end

