-- ==== Sys2Proof/Laws/State.lean ====
section
/-! SUPPORT. One lemma per field per update of the state, so that no later proof unfolds a record update. -/

namespace Sys2Proof.Machine

/-! ### setFlag -/

@[simp] theorem State.setFlag_regs (s : State) (f : Flag) : (s.setFlag f).regs = s.regs := rfl
@[simp] theorem State.setFlag_ssp (s : State) (f : Flag) : (s.setFlag f).ssp = s.ssp := rfl
@[simp] theorem State.setFlag_usp (s : State) (f : Flag) : (s.setFlag f).usp = s.usp := rfl
@[simp] theorem State.setFlag_pc (s : State) (f : Flag) : (s.setFlag f).pc = s.pc := rfl
@[simp] theorem State.setFlag_flag (s : State) (f : Flag) : (s.setFlag f).flag = f := rfl
@[simp] theorem State.setFlag_mem (s : State) (f : Flag) : (s.setFlag f).mem = s.mem := rfl
@[simp] theorem State.setFlag_rom (s : State) (f : Flag) : (s.setFlag f).rom = s.rom := rfl
@[simp] theorem State.setFlag_iplAttached (s : State) (f : Flag) : (s.setFlag f).iplAttached = s.iplAttached := rfl
@[simp] theorem State.setFlag_halted (s : State) (f : Flag) : (s.setFlag f).halted = s.halted := rfl
@[simp] theorem State.setFlag_pending (s : State) (f : Flag) : (s.setFlag f).pending = s.pending := rfl
@[simp] theorem State.setFlag_relocation (s : State) (f : Flag) : (s.setFlag f).relocation = s.relocation := rfl
@[simp] theorem State.setFlag_paging (s : State) (f : Flag) : (s.setFlag f).paging = s.paging := rfl
@[simp] theorem State.setFlag_base (s : State) (f : Flag) : (s.setFlag f).base = s.base := rfl
@[simp] theorem State.setFlag_limit (s : State) (f : Flag) : (s.setFlag f).limit = s.limit := rfl
@[simp] theorem State.setFlag_mmuCause (s : State) (f : Flag) : (s.setFlag f).mmuCause = s.mmuCause := rfl
@[simp] theorem State.setFlag_faultPage (s : State) (f : Flag) : (s.setFlag f).faultPage = s.faultPage := rfl
@[simp] theorem State.setFlag_tlb (s : State) (f : Flag) : (s.setFlag f).tlb = s.tlb := rfl
@[simp] theorem State.setFlag_io (s : State) (f : Flag) : (s.setFlag f).io = s.io := rfl
@[simp] theorem State.setFlag_trace (s : State) (f : Flag) : (s.setFlag f).trace = s.trace := rfl
@[simp] theorem State.setFlag_draws (s : State) (f : Flag) : (s.setFlag f).draws = s.draws := rfl
@[simp] theorem State.setFlag_params (s : State) (f : Flag) : (s.setFlag f).params = s.params := rfl

/-! ### setSsp -/

@[simp] theorem State.setSsp_regs (s : State) (v : Word) : (s.setSsp v).regs = s.regs := rfl
@[simp] theorem State.setSsp_ssp (s : State) (v : Word) : (s.setSsp v).ssp = v := rfl
@[simp] theorem State.setSsp_usp (s : State) (v : Word) : (s.setSsp v).usp = s.usp := rfl
@[simp] theorem State.setSsp_pc (s : State) (v : Word) : (s.setSsp v).pc = s.pc := rfl
@[simp] theorem State.setSsp_flag (s : State) (v : Word) : (s.setSsp v).flag = s.flag := rfl
@[simp] theorem State.setSsp_mem (s : State) (v : Word) : (s.setSsp v).mem = s.mem := rfl
@[simp] theorem State.setSsp_rom (s : State) (v : Word) : (s.setSsp v).rom = s.rom := rfl
@[simp] theorem State.setSsp_iplAttached (s : State) (v : Word) : (s.setSsp v).iplAttached = s.iplAttached := rfl
@[simp] theorem State.setSsp_halted (s : State) (v : Word) : (s.setSsp v).halted = s.halted := rfl
@[simp] theorem State.setSsp_pending (s : State) (v : Word) : (s.setSsp v).pending = s.pending := rfl
@[simp] theorem State.setSsp_relocation (s : State) (v : Word) : (s.setSsp v).relocation = s.relocation := rfl
@[simp] theorem State.setSsp_paging (s : State) (v : Word) : (s.setSsp v).paging = s.paging := rfl
@[simp] theorem State.setSsp_base (s : State) (v : Word) : (s.setSsp v).base = s.base := rfl
@[simp] theorem State.setSsp_limit (s : State) (v : Word) : (s.setSsp v).limit = s.limit := rfl
@[simp] theorem State.setSsp_mmuCause (s : State) (v : Word) : (s.setSsp v).mmuCause = s.mmuCause := rfl
@[simp] theorem State.setSsp_faultPage (s : State) (v : Word) : (s.setSsp v).faultPage = s.faultPage := rfl
@[simp] theorem State.setSsp_tlb (s : State) (v : Word) : (s.setSsp v).tlb = s.tlb := rfl
@[simp] theorem State.setSsp_io (s : State) (v : Word) : (s.setSsp v).io = s.io := rfl
@[simp] theorem State.setSsp_trace (s : State) (v : Word) : (s.setSsp v).trace = s.trace := rfl
@[simp] theorem State.setSsp_draws (s : State) (v : Word) : (s.setSsp v).draws = s.draws := rfl
@[simp] theorem State.setSsp_params (s : State) (v : Word) : (s.setSsp v).params = s.params := rfl

/-! ### setUsp -/

@[simp] theorem State.setUsp_regs (s : State) (v : Word) : (s.setUsp v).regs = s.regs := rfl
@[simp] theorem State.setUsp_ssp (s : State) (v : Word) : (s.setUsp v).ssp = s.ssp := rfl
@[simp] theorem State.setUsp_usp (s : State) (v : Word) : (s.setUsp v).usp = v := rfl
@[simp] theorem State.setUsp_pc (s : State) (v : Word) : (s.setUsp v).pc = s.pc := rfl
@[simp] theorem State.setUsp_flag (s : State) (v : Word) : (s.setUsp v).flag = s.flag := rfl
@[simp] theorem State.setUsp_mem (s : State) (v : Word) : (s.setUsp v).mem = s.mem := rfl
@[simp] theorem State.setUsp_rom (s : State) (v : Word) : (s.setUsp v).rom = s.rom := rfl
@[simp] theorem State.setUsp_iplAttached (s : State) (v : Word) : (s.setUsp v).iplAttached = s.iplAttached := rfl
@[simp] theorem State.setUsp_halted (s : State) (v : Word) : (s.setUsp v).halted = s.halted := rfl
@[simp] theorem State.setUsp_pending (s : State) (v : Word) : (s.setUsp v).pending = s.pending := rfl
@[simp] theorem State.setUsp_relocation (s : State) (v : Word) : (s.setUsp v).relocation = s.relocation := rfl
@[simp] theorem State.setUsp_paging (s : State) (v : Word) : (s.setUsp v).paging = s.paging := rfl
@[simp] theorem State.setUsp_base (s : State) (v : Word) : (s.setUsp v).base = s.base := rfl
@[simp] theorem State.setUsp_limit (s : State) (v : Word) : (s.setUsp v).limit = s.limit := rfl
@[simp] theorem State.setUsp_mmuCause (s : State) (v : Word) : (s.setUsp v).mmuCause = s.mmuCause := rfl
@[simp] theorem State.setUsp_faultPage (s : State) (v : Word) : (s.setUsp v).faultPage = s.faultPage := rfl
@[simp] theorem State.setUsp_tlb (s : State) (v : Word) : (s.setUsp v).tlb = s.tlb := rfl
@[simp] theorem State.setUsp_io (s : State) (v : Word) : (s.setUsp v).io = s.io := rfl
@[simp] theorem State.setUsp_trace (s : State) (v : Word) : (s.setUsp v).trace = s.trace := rfl
@[simp] theorem State.setUsp_draws (s : State) (v : Word) : (s.setUsp v).draws = s.draws := rfl
@[simp] theorem State.setUsp_params (s : State) (v : Word) : (s.setUsp v).params = s.params := rfl

/-! ### goto -/

@[simp] theorem State.goto_regs (s : State) (t : Word) : (s.goto t).regs = s.regs := rfl
@[simp] theorem State.goto_ssp (s : State) (t : Word) : (s.goto t).ssp = s.ssp := rfl
@[simp] theorem State.goto_usp (s : State) (t : Word) : (s.goto t).usp = s.usp := rfl
@[simp] theorem State.goto_pc (s : State) (t : Word) : (s.goto t).pc = t := rfl
@[simp] theorem State.goto_flag (s : State) (t : Word) : (s.goto t).flag = s.flag := rfl
@[simp] theorem State.goto_mem (s : State) (t : Word) : (s.goto t).mem = s.mem := rfl
@[simp] theorem State.goto_rom (s : State) (t : Word) : (s.goto t).rom = s.rom := rfl
@[simp] theorem State.goto_iplAttached (s : State) (t : Word) : (s.goto t).iplAttached = s.iplAttached := rfl
@[simp] theorem State.goto_halted (s : State) (t : Word) : (s.goto t).halted = s.halted := rfl
@[simp] theorem State.goto_pending (s : State) (t : Word) : (s.goto t).pending = s.pending := rfl
@[simp] theorem State.goto_relocation (s : State) (t : Word) : (s.goto t).relocation = s.relocation := rfl
@[simp] theorem State.goto_paging (s : State) (t : Word) : (s.goto t).paging = s.paging := rfl
@[simp] theorem State.goto_base (s : State) (t : Word) : (s.goto t).base = s.base := rfl
@[simp] theorem State.goto_limit (s : State) (t : Word) : (s.goto t).limit = s.limit := rfl
@[simp] theorem State.goto_mmuCause (s : State) (t : Word) : (s.goto t).mmuCause = s.mmuCause := rfl
@[simp] theorem State.goto_faultPage (s : State) (t : Word) : (s.goto t).faultPage = s.faultPage := rfl
@[simp] theorem State.goto_tlb (s : State) (t : Word) : (s.goto t).tlb = s.tlb := rfl
@[simp] theorem State.goto_io (s : State) (t : Word) : (s.goto t).io = s.io := rfl
@[simp] theorem State.goto_trace (s : State) (t : Word) : (s.goto t).trace = s.trace := rfl
@[simp] theorem State.goto_draws (s : State) (t : Word) : (s.goto t).draws = s.draws := rfl
@[simp] theorem State.goto_params (s : State) (t : Word) : (s.goto t).params = s.params := rfl

/-! ### setZS -/

@[simp] theorem State.setZS_regs (s : State) (r : Word) : (s.setZS r).regs = s.regs := rfl
@[simp] theorem State.setZS_ssp (s : State) (r : Word) : (s.setZS r).ssp = s.ssp := rfl
@[simp] theorem State.setZS_usp (s : State) (r : Word) : (s.setZS r).usp = s.usp := rfl
@[simp] theorem State.setZS_pc (s : State) (r : Word) : (s.setZS r).pc = s.pc := rfl
@[simp] theorem State.setZS_flag (s : State) (r : Word) : (s.setZS r).flag = s.flag.setZS r := rfl
@[simp] theorem State.setZS_mem (s : State) (r : Word) : (s.setZS r).mem = s.mem := rfl
@[simp] theorem State.setZS_rom (s : State) (r : Word) : (s.setZS r).rom = s.rom := rfl
@[simp] theorem State.setZS_iplAttached (s : State) (r : Word) : (s.setZS r).iplAttached = s.iplAttached := rfl
@[simp] theorem State.setZS_halted (s : State) (r : Word) : (s.setZS r).halted = s.halted := rfl
@[simp] theorem State.setZS_pending (s : State) (r : Word) : (s.setZS r).pending = s.pending := rfl
@[simp] theorem State.setZS_relocation (s : State) (r : Word) : (s.setZS r).relocation = s.relocation := rfl
@[simp] theorem State.setZS_paging (s : State) (r : Word) : (s.setZS r).paging = s.paging := rfl
@[simp] theorem State.setZS_base (s : State) (r : Word) : (s.setZS r).base = s.base := rfl
@[simp] theorem State.setZS_limit (s : State) (r : Word) : (s.setZS r).limit = s.limit := rfl
@[simp] theorem State.setZS_mmuCause (s : State) (r : Word) : (s.setZS r).mmuCause = s.mmuCause := rfl
@[simp] theorem State.setZS_faultPage (s : State) (r : Word) : (s.setZS r).faultPage = s.faultPage := rfl
@[simp] theorem State.setZS_tlb (s : State) (r : Word) : (s.setZS r).tlb = s.tlb := rfl
@[simp] theorem State.setZS_io (s : State) (r : Word) : (s.setZS r).io = s.io := rfl
@[simp] theorem State.setZS_trace (s : State) (r : Word) : (s.setZS r).trace = s.trace := rfl
@[simp] theorem State.setZS_draws (s : State) (r : Word) : (s.setZS r).draws = s.draws := rfl
@[simp] theorem State.setZS_params (s : State) (r : Word) : (s.setZS r).params = s.params := rfl

/-! ### setCV -/

@[simp] theorem State.setCV_regs (s : State) (c v : Bool) : (s.setCV c v).regs = s.regs := rfl
@[simp] theorem State.setCV_ssp (s : State) (c v : Bool) : (s.setCV c v).ssp = s.ssp := rfl
@[simp] theorem State.setCV_usp (s : State) (c v : Bool) : (s.setCV c v).usp = s.usp := rfl
@[simp] theorem State.setCV_pc (s : State) (c v : Bool) : (s.setCV c v).pc = s.pc := rfl
@[simp] theorem State.setCV_flag (s : State) (c v : Bool) : (s.setCV c v).flag = s.flag.setCV c v := rfl
@[simp] theorem State.setCV_mem (s : State) (c v : Bool) : (s.setCV c v).mem = s.mem := rfl
@[simp] theorem State.setCV_rom (s : State) (c v : Bool) : (s.setCV c v).rom = s.rom := rfl
@[simp] theorem State.setCV_iplAttached (s : State) (c v : Bool) : (s.setCV c v).iplAttached = s.iplAttached := rfl
@[simp] theorem State.setCV_halted (s : State) (c v : Bool) : (s.setCV c v).halted = s.halted := rfl
@[simp] theorem State.setCV_pending (s : State) (c v : Bool) : (s.setCV c v).pending = s.pending := rfl
@[simp] theorem State.setCV_relocation (s : State) (c v : Bool) : (s.setCV c v).relocation = s.relocation := rfl
@[simp] theorem State.setCV_paging (s : State) (c v : Bool) : (s.setCV c v).paging = s.paging := rfl
@[simp] theorem State.setCV_base (s : State) (c v : Bool) : (s.setCV c v).base = s.base := rfl
@[simp] theorem State.setCV_limit (s : State) (c v : Bool) : (s.setCV c v).limit = s.limit := rfl
@[simp] theorem State.setCV_mmuCause (s : State) (c v : Bool) : (s.setCV c v).mmuCause = s.mmuCause := rfl
@[simp] theorem State.setCV_faultPage (s : State) (c v : Bool) : (s.setCV c v).faultPage = s.faultPage := rfl
@[simp] theorem State.setCV_tlb (s : State) (c v : Bool) : (s.setCV c v).tlb = s.tlb := rfl
@[simp] theorem State.setCV_io (s : State) (c v : Bool) : (s.setCV c v).io = s.io := rfl
@[simp] theorem State.setCV_trace (s : State) (c v : Bool) : (s.setCV c v).trace = s.trace := rfl
@[simp] theorem State.setCV_draws (s : State) (c v : Bool) : (s.setCV c v).draws = s.draws := rfl
@[simp] theorem State.setCV_params (s : State) (c v : Bool) : (s.setCV c v).params = s.params := rfl

/-! ### drawCV -/

@[simp] theorem State.drawCV_regs (s : State) : (s.drawCV).regs = s.regs := rfl
@[simp] theorem State.drawCV_ssp (s : State) : (s.drawCV).ssp = s.ssp := rfl
@[simp] theorem State.drawCV_usp (s : State) : (s.drawCV).usp = s.usp := rfl
@[simp] theorem State.drawCV_pc (s : State) : (s.drawCV).pc = s.pc := rfl
@[simp] theorem State.drawCV_flag (s : State) : (s.drawCV).flag = s.flag.setCV (Config.freeBit s.draws) (Config.freeBit (s.draws + 1)) := rfl
@[simp] theorem State.drawCV_mem (s : State) : (s.drawCV).mem = s.mem := rfl
@[simp] theorem State.drawCV_rom (s : State) : (s.drawCV).rom = s.rom := rfl
@[simp] theorem State.drawCV_iplAttached (s : State) : (s.drawCV).iplAttached = s.iplAttached := rfl
@[simp] theorem State.drawCV_halted (s : State) : (s.drawCV).halted = s.halted := rfl
@[simp] theorem State.drawCV_pending (s : State) : (s.drawCV).pending = s.pending := rfl
@[simp] theorem State.drawCV_relocation (s : State) : (s.drawCV).relocation = s.relocation := rfl
@[simp] theorem State.drawCV_paging (s : State) : (s.drawCV).paging = s.paging := rfl
@[simp] theorem State.drawCV_base (s : State) : (s.drawCV).base = s.base := rfl
@[simp] theorem State.drawCV_limit (s : State) : (s.drawCV).limit = s.limit := rfl
@[simp] theorem State.drawCV_mmuCause (s : State) : (s.drawCV).mmuCause = s.mmuCause := rfl
@[simp] theorem State.drawCV_faultPage (s : State) : (s.drawCV).faultPage = s.faultPage := rfl
@[simp] theorem State.drawCV_tlb (s : State) : (s.drawCV).tlb = s.tlb := rfl
@[simp] theorem State.drawCV_io (s : State) : (s.drawCV).io = s.io := rfl
@[simp] theorem State.drawCV_trace (s : State) : (s.drawCV).trace = s.trace := rfl
@[simp] theorem State.drawCV_draws (s : State) : (s.drawCV).draws = s.draws + 2 := rfl
@[simp] theorem State.drawCV_params (s : State) : (s.drawCV).params = s.params := rfl

/-! ### drawVCSZ -/

@[simp] theorem State.drawVCSZ_regs (s : State) : (s.drawVCSZ).regs = s.regs := rfl
@[simp] theorem State.drawVCSZ_ssp (s : State) : (s.drawVCSZ).ssp = s.ssp := rfl
@[simp] theorem State.drawVCSZ_usp (s : State) : (s.drawVCSZ).usp = s.usp := rfl
@[simp] theorem State.drawVCSZ_pc (s : State) : (s.drawVCSZ).pc = s.pc := rfl
@[simp] theorem State.drawVCSZ_mem (s : State) : (s.drawVCSZ).mem = s.mem := rfl
@[simp] theorem State.drawVCSZ_rom (s : State) : (s.drawVCSZ).rom = s.rom := rfl
@[simp] theorem State.drawVCSZ_iplAttached (s : State) : (s.drawVCSZ).iplAttached = s.iplAttached := rfl
@[simp] theorem State.drawVCSZ_halted (s : State) : (s.drawVCSZ).halted = s.halted := rfl
@[simp] theorem State.drawVCSZ_pending (s : State) : (s.drawVCSZ).pending = s.pending := rfl
@[simp] theorem State.drawVCSZ_relocation (s : State) : (s.drawVCSZ).relocation = s.relocation := rfl
@[simp] theorem State.drawVCSZ_paging (s : State) : (s.drawVCSZ).paging = s.paging := rfl
@[simp] theorem State.drawVCSZ_base (s : State) : (s.drawVCSZ).base = s.base := rfl
@[simp] theorem State.drawVCSZ_limit (s : State) : (s.drawVCSZ).limit = s.limit := rfl
@[simp] theorem State.drawVCSZ_mmuCause (s : State) : (s.drawVCSZ).mmuCause = s.mmuCause := rfl
@[simp] theorem State.drawVCSZ_faultPage (s : State) : (s.drawVCSZ).faultPage = s.faultPage := rfl
@[simp] theorem State.drawVCSZ_tlb (s : State) : (s.drawVCSZ).tlb = s.tlb := rfl
@[simp] theorem State.drawVCSZ_io (s : State) : (s.drawVCSZ).io = s.io := rfl
@[simp] theorem State.drawVCSZ_trace (s : State) : (s.drawVCSZ).trace = s.trace := rfl
@[simp] theorem State.drawVCSZ_draws (s : State) : (s.drawVCSZ).draws = s.draws + 4 := rfl
@[simp] theorem State.drawVCSZ_params (s : State) : (s.drawVCSZ).params = s.params := rfl

/-! ### storeByte -/

@[simp] theorem State.storeByte_regs (s : State) (a : Word) (v : Byte) : (s.storeByte a v).regs = s.regs := rfl
@[simp] theorem State.storeByte_ssp (s : State) (a : Word) (v : Byte) : (s.storeByte a v).ssp = s.ssp := rfl
@[simp] theorem State.storeByte_usp (s : State) (a : Word) (v : Byte) : (s.storeByte a v).usp = s.usp := rfl
@[simp] theorem State.storeByte_pc (s : State) (a : Word) (v : Byte) : (s.storeByte a v).pc = s.pc := rfl
@[simp] theorem State.storeByte_flag (s : State) (a : Word) (v : Byte) : (s.storeByte a v).flag = s.flag := rfl
@[simp] theorem State.storeByte_mem (s : State) (a : Word) (v : Byte) : (s.storeByte a v).mem = Memory.put s.mem a.toNat v := rfl
@[simp] theorem State.storeByte_rom (s : State) (a : Word) (v : Byte) : (s.storeByte a v).rom = s.rom := rfl
@[simp] theorem State.storeByte_iplAttached (s : State) (a : Word) (v : Byte) : (s.storeByte a v).iplAttached = s.iplAttached := rfl
@[simp] theorem State.storeByte_halted (s : State) (a : Word) (v : Byte) : (s.storeByte a v).halted = s.halted := rfl
@[simp] theorem State.storeByte_pending (s : State) (a : Word) (v : Byte) : (s.storeByte a v).pending = s.pending := rfl
@[simp] theorem State.storeByte_relocation (s : State) (a : Word) (v : Byte) : (s.storeByte a v).relocation = s.relocation := rfl
@[simp] theorem State.storeByte_paging (s : State) (a : Word) (v : Byte) : (s.storeByte a v).paging = s.paging := rfl
@[simp] theorem State.storeByte_base (s : State) (a : Word) (v : Byte) : (s.storeByte a v).base = s.base := rfl
@[simp] theorem State.storeByte_limit (s : State) (a : Word) (v : Byte) : (s.storeByte a v).limit = s.limit := rfl
@[simp] theorem State.storeByte_mmuCause (s : State) (a : Word) (v : Byte) : (s.storeByte a v).mmuCause = s.mmuCause := rfl
@[simp] theorem State.storeByte_faultPage (s : State) (a : Word) (v : Byte) : (s.storeByte a v).faultPage = s.faultPage := rfl
@[simp] theorem State.storeByte_tlb (s : State) (a : Word) (v : Byte) : (s.storeByte a v).tlb = s.tlb := rfl
@[simp] theorem State.storeByte_io (s : State) (a : Word) (v : Byte) : (s.storeByte a v).io = s.io := rfl
@[simp] theorem State.storeByte_trace (s : State) (a : Word) (v : Byte) : (s.storeByte a v).trace = s.trace := rfl
@[simp] theorem State.storeByte_draws (s : State) (a : Word) (v : Byte) : (s.storeByte a v).draws = s.draws := rfl
@[simp] theorem State.storeByte_params (s : State) (a : Word) (v : Byte) : (s.storeByte a v).params = s.params := rfl

/-! ### storeWord -/

@[simp] theorem State.storeWord_regs (s : State) (a v : Word) : (s.storeWord a v).regs = s.regs := rfl
@[simp] theorem State.storeWord_ssp (s : State) (a v : Word) : (s.storeWord a v).ssp = s.ssp := rfl
@[simp] theorem State.storeWord_usp (s : State) (a v : Word) : (s.storeWord a v).usp = s.usp := rfl
@[simp] theorem State.storeWord_pc (s : State) (a v : Word) : (s.storeWord a v).pc = s.pc := rfl
@[simp] theorem State.storeWord_flag (s : State) (a v : Word) : (s.storeWord a v).flag = s.flag := rfl
@[simp] theorem State.storeWord_mem (s : State) (a v : Word) : (s.storeWord a v).mem = Memory.put (Memory.put s.mem a.toNat (highByte v)) (a + 1).toNat (lowByte v) := rfl
@[simp] theorem State.storeWord_rom (s : State) (a v : Word) : (s.storeWord a v).rom = s.rom := rfl
@[simp] theorem State.storeWord_iplAttached (s : State) (a v : Word) : (s.storeWord a v).iplAttached = s.iplAttached := rfl
@[simp] theorem State.storeWord_halted (s : State) (a v : Word) : (s.storeWord a v).halted = s.halted := rfl
@[simp] theorem State.storeWord_pending (s : State) (a v : Word) : (s.storeWord a v).pending = s.pending := rfl
@[simp] theorem State.storeWord_relocation (s : State) (a v : Word) : (s.storeWord a v).relocation = s.relocation := rfl
@[simp] theorem State.storeWord_paging (s : State) (a v : Word) : (s.storeWord a v).paging = s.paging := rfl
@[simp] theorem State.storeWord_base (s : State) (a v : Word) : (s.storeWord a v).base = s.base := rfl
@[simp] theorem State.storeWord_limit (s : State) (a v : Word) : (s.storeWord a v).limit = s.limit := rfl
@[simp] theorem State.storeWord_mmuCause (s : State) (a v : Word) : (s.storeWord a v).mmuCause = s.mmuCause := rfl
@[simp] theorem State.storeWord_faultPage (s : State) (a v : Word) : (s.storeWord a v).faultPage = s.faultPage := rfl
@[simp] theorem State.storeWord_tlb (s : State) (a v : Word) : (s.storeWord a v).tlb = s.tlb := rfl
@[simp] theorem State.storeWord_io (s : State) (a v : Word) : (s.storeWord a v).io = s.io := rfl
@[simp] theorem State.storeWord_trace (s : State) (a v : Word) : (s.storeWord a v).trace = s.trace := rfl
@[simp] theorem State.storeWord_draws (s : State) (a v : Word) : (s.storeWord a v).draws = s.draws := rfl
@[simp] theorem State.storeWord_params (s : State) (a v : Word) : (s.storeWord a v).params = s.params := rfl

/-! ### record -/

@[simp] theorem State.record_regs (s : State) (e : IoEvent) : (s.record e).regs = s.regs := rfl
@[simp] theorem State.record_ssp (s : State) (e : IoEvent) : (s.record e).ssp = s.ssp := rfl
@[simp] theorem State.record_usp (s : State) (e : IoEvent) : (s.record e).usp = s.usp := rfl
@[simp] theorem State.record_pc (s : State) (e : IoEvent) : (s.record e).pc = s.pc := rfl
@[simp] theorem State.record_flag (s : State) (e : IoEvent) : (s.record e).flag = s.flag := rfl
@[simp] theorem State.record_mem (s : State) (e : IoEvent) : (s.record e).mem = s.mem := rfl
@[simp] theorem State.record_rom (s : State) (e : IoEvent) : (s.record e).rom = s.rom := rfl
@[simp] theorem State.record_iplAttached (s : State) (e : IoEvent) : (s.record e).iplAttached = s.iplAttached := rfl
@[simp] theorem State.record_halted (s : State) (e : IoEvent) : (s.record e).halted = s.halted := rfl
@[simp] theorem State.record_pending (s : State) (e : IoEvent) : (s.record e).pending = s.pending := rfl
@[simp] theorem State.record_relocation (s : State) (e : IoEvent) : (s.record e).relocation = s.relocation := rfl
@[simp] theorem State.record_paging (s : State) (e : IoEvent) : (s.record e).paging = s.paging := rfl
@[simp] theorem State.record_base (s : State) (e : IoEvent) : (s.record e).base = s.base := rfl
@[simp] theorem State.record_limit (s : State) (e : IoEvent) : (s.record e).limit = s.limit := rfl
@[simp] theorem State.record_mmuCause (s : State) (e : IoEvent) : (s.record e).mmuCause = s.mmuCause := rfl
@[simp] theorem State.record_faultPage (s : State) (e : IoEvent) : (s.record e).faultPage = s.faultPage := rfl
@[simp] theorem State.record_tlb (s : State) (e : IoEvent) : (s.record e).tlb = s.tlb := rfl
@[simp] theorem State.record_io (s : State) (e : IoEvent) : (s.record e).io = s.io := rfl
@[simp] theorem State.record_trace (s : State) (e : IoEvent) : (s.record e).trace = e :: s.trace := rfl
@[simp] theorem State.record_draws (s : State) (e : IoEvent) : (s.record e).draws = s.draws := rfl
@[simp] theorem State.record_params (s : State) (e : IoEvent) : (s.record e).params = s.params := rfl

/-! ### setIoReg -/

@[simp] theorem State.setIoReg_regs (s : State) (a : Nat) (v : Byte) : (s.setIoReg a v).regs = s.regs := rfl
@[simp] theorem State.setIoReg_ssp (s : State) (a : Nat) (v : Byte) : (s.setIoReg a v).ssp = s.ssp := rfl
@[simp] theorem State.setIoReg_usp (s : State) (a : Nat) (v : Byte) : (s.setIoReg a v).usp = s.usp := rfl
@[simp] theorem State.setIoReg_pc (s : State) (a : Nat) (v : Byte) : (s.setIoReg a v).pc = s.pc := rfl
@[simp] theorem State.setIoReg_flag (s : State) (a : Nat) (v : Byte) : (s.setIoReg a v).flag = s.flag := rfl
@[simp] theorem State.setIoReg_mem (s : State) (a : Nat) (v : Byte) : (s.setIoReg a v).mem = s.mem := rfl
@[simp] theorem State.setIoReg_rom (s : State) (a : Nat) (v : Byte) : (s.setIoReg a v).rom = s.rom := rfl
@[simp] theorem State.setIoReg_iplAttached (s : State) (a : Nat) (v : Byte) : (s.setIoReg a v).iplAttached = s.iplAttached := rfl
@[simp] theorem State.setIoReg_halted (s : State) (a : Nat) (v : Byte) : (s.setIoReg a v).halted = s.halted := rfl
@[simp] theorem State.setIoReg_pending (s : State) (a : Nat) (v : Byte) : (s.setIoReg a v).pending = s.pending := rfl
@[simp] theorem State.setIoReg_relocation (s : State) (a : Nat) (v : Byte) : (s.setIoReg a v).relocation = s.relocation := rfl
@[simp] theorem State.setIoReg_paging (s : State) (a : Nat) (v : Byte) : (s.setIoReg a v).paging = s.paging := rfl
@[simp] theorem State.setIoReg_base (s : State) (a : Nat) (v : Byte) : (s.setIoReg a v).base = s.base := rfl
@[simp] theorem State.setIoReg_limit (s : State) (a : Nat) (v : Byte) : (s.setIoReg a v).limit = s.limit := rfl
@[simp] theorem State.setIoReg_mmuCause (s : State) (a : Nat) (v : Byte) : (s.setIoReg a v).mmuCause = s.mmuCause := rfl
@[simp] theorem State.setIoReg_faultPage (s : State) (a : Nat) (v : Byte) : (s.setIoReg a v).faultPage = s.faultPage := rfl
@[simp] theorem State.setIoReg_tlb (s : State) (a : Nat) (v : Byte) : (s.setIoReg a v).tlb = s.tlb := rfl
@[simp] theorem State.setIoReg_io (s : State) (a : Nat) (v : Byte) : (s.setIoReg a v).io = if v = ioResetByte a then Memory.erase s.io a else Memory.put s.io a v := rfl
@[simp] theorem State.setIoReg_trace (s : State) (a : Nat) (v : Byte) : (s.setIoReg a v).trace = s.trace := rfl
@[simp] theorem State.setIoReg_draws (s : State) (a : Nat) (v : Byte) : (s.setIoReg a v).draws = s.draws := rfl
@[simp] theorem State.setIoReg_params (s : State) (a : Nat) (v : Byte) : (s.setIoReg a v).params = s.params := rfl

/-! ### setTlb -/

@[simp] theorem State.setTlb_regs (s : State) (n : Nat) (v : BitVec 24) : (s.setTlb n v).regs = s.regs := rfl
@[simp] theorem State.setTlb_ssp (s : State) (n : Nat) (v : BitVec 24) : (s.setTlb n v).ssp = s.ssp := rfl
@[simp] theorem State.setTlb_usp (s : State) (n : Nat) (v : BitVec 24) : (s.setTlb n v).usp = s.usp := rfl
@[simp] theorem State.setTlb_pc (s : State) (n : Nat) (v : BitVec 24) : (s.setTlb n v).pc = s.pc := rfl
@[simp] theorem State.setTlb_flag (s : State) (n : Nat) (v : BitVec 24) : (s.setTlb n v).flag = s.flag := rfl
@[simp] theorem State.setTlb_mem (s : State) (n : Nat) (v : BitVec 24) : (s.setTlb n v).mem = s.mem := rfl
@[simp] theorem State.setTlb_rom (s : State) (n : Nat) (v : BitVec 24) : (s.setTlb n v).rom = s.rom := rfl
@[simp] theorem State.setTlb_iplAttached (s : State) (n : Nat) (v : BitVec 24) : (s.setTlb n v).iplAttached = s.iplAttached := rfl
@[simp] theorem State.setTlb_halted (s : State) (n : Nat) (v : BitVec 24) : (s.setTlb n v).halted = s.halted := rfl
@[simp] theorem State.setTlb_pending (s : State) (n : Nat) (v : BitVec 24) : (s.setTlb n v).pending = s.pending := rfl
@[simp] theorem State.setTlb_relocation (s : State) (n : Nat) (v : BitVec 24) : (s.setTlb n v).relocation = s.relocation := rfl
@[simp] theorem State.setTlb_paging (s : State) (n : Nat) (v : BitVec 24) : (s.setTlb n v).paging = s.paging := rfl
@[simp] theorem State.setTlb_base (s : State) (n : Nat) (v : BitVec 24) : (s.setTlb n v).base = s.base := rfl
@[simp] theorem State.setTlb_limit (s : State) (n : Nat) (v : BitVec 24) : (s.setTlb n v).limit = s.limit := rfl
@[simp] theorem State.setTlb_mmuCause (s : State) (n : Nat) (v : BitVec 24) : (s.setTlb n v).mmuCause = s.mmuCause := rfl
@[simp] theorem State.setTlb_faultPage (s : State) (n : Nat) (v : BitVec 24) : (s.setTlb n v).faultPage = s.faultPage := rfl
@[simp] theorem State.setTlb_tlb (s : State) (n : Nat) (v : BitVec 24) : (s.setTlb n v).tlb = s.tlb.setIfInBounds n v := rfl
@[simp] theorem State.setTlb_io (s : State) (n : Nat) (v : BitVec 24) : (s.setTlb n v).io = s.io := rfl
@[simp] theorem State.setTlb_trace (s : State) (n : Nat) (v : BitVec 24) : (s.setTlb n v).trace = s.trace := rfl
@[simp] theorem State.setTlb_draws (s : State) (n : Nat) (v : BitVec 24) : (s.setTlb n v).draws = s.draws := rfl
@[simp] theorem State.setTlb_params (s : State) (n : Nat) (v : BitVec 24) : (s.setTlb n v).params = s.params := rfl

/-! ### clearTlb -/

@[simp] theorem State.clearTlb_regs (s : State) : (s.clearTlb).regs = s.regs := rfl
@[simp] theorem State.clearTlb_ssp (s : State) : (s.clearTlb).ssp = s.ssp := rfl
@[simp] theorem State.clearTlb_usp (s : State) : (s.clearTlb).usp = s.usp := rfl
@[simp] theorem State.clearTlb_pc (s : State) : (s.clearTlb).pc = s.pc := rfl
@[simp] theorem State.clearTlb_flag (s : State) : (s.clearTlb).flag = s.flag := rfl
@[simp] theorem State.clearTlb_mem (s : State) : (s.clearTlb).mem = s.mem := rfl
@[simp] theorem State.clearTlb_rom (s : State) : (s.clearTlb).rom = s.rom := rfl
@[simp] theorem State.clearTlb_iplAttached (s : State) : (s.clearTlb).iplAttached = s.iplAttached := rfl
@[simp] theorem State.clearTlb_halted (s : State) : (s.clearTlb).halted = s.halted := rfl
@[simp] theorem State.clearTlb_pending (s : State) : (s.clearTlb).pending = s.pending := rfl
@[simp] theorem State.clearTlb_relocation (s : State) : (s.clearTlb).relocation = s.relocation := rfl
@[simp] theorem State.clearTlb_paging (s : State) : (s.clearTlb).paging = s.paging := rfl
@[simp] theorem State.clearTlb_base (s : State) : (s.clearTlb).base = s.base := rfl
@[simp] theorem State.clearTlb_limit (s : State) : (s.clearTlb).limit = s.limit := rfl
@[simp] theorem State.clearTlb_mmuCause (s : State) : (s.clearTlb).mmuCause = s.mmuCause := rfl
@[simp] theorem State.clearTlb_faultPage (s : State) : (s.clearTlb).faultPage = s.faultPage := rfl
@[simp] theorem State.clearTlb_io (s : State) : (s.clearTlb).io = s.io := rfl
@[simp] theorem State.clearTlb_trace (s : State) : (s.clearTlb).trace = s.trace := rfl
@[simp] theorem State.clearTlb_draws (s : State) : (s.clearTlb).draws = s.draws + 16 := rfl
@[simp] theorem State.clearTlb_params (s : State) : (s.clearTlb).params = s.params := rfl

/-! ### poke and writeReg -/

@[simp] theorem State.poke_pc (s : State) (h : Home) (v : Word) : (s.poke h v).pc = s.pc := by cases h <;> rfl
@[simp] theorem State.poke_mem (s : State) (h : Home) (v : Word) : (s.poke h v).mem = s.mem := by cases h <;> rfl
@[simp] theorem State.poke_rom (s : State) (h : Home) (v : Word) : (s.poke h v).rom = s.rom := by cases h <;> rfl
@[simp] theorem State.poke_iplAttached (s : State) (h : Home) (v : Word) : (s.poke h v).iplAttached = s.iplAttached := by cases h <;> rfl
@[simp] theorem State.poke_halted (s : State) (h : Home) (v : Word) : (s.poke h v).halted = s.halted := by cases h <;> rfl
@[simp] theorem State.poke_pending (s : State) (h : Home) (v : Word) : (s.poke h v).pending = s.pending := by cases h <;> rfl
@[simp] theorem State.poke_relocation (s : State) (h : Home) (v : Word) : (s.poke h v).relocation = s.relocation := by cases h <;> rfl
@[simp] theorem State.poke_paging (s : State) (h : Home) (v : Word) : (s.poke h v).paging = s.paging := by cases h <;> rfl
@[simp] theorem State.poke_base (s : State) (h : Home) (v : Word) : (s.poke h v).base = s.base := by cases h <;> rfl
@[simp] theorem State.poke_limit (s : State) (h : Home) (v : Word) : (s.poke h v).limit = s.limit := by cases h <;> rfl
@[simp] theorem State.poke_mmuCause (s : State) (h : Home) (v : Word) : (s.poke h v).mmuCause = s.mmuCause := by cases h <;> rfl
@[simp] theorem State.poke_faultPage (s : State) (h : Home) (v : Word) : (s.poke h v).faultPage = s.faultPage := by cases h <;> rfl
@[simp] theorem State.poke_tlb (s : State) (h : Home) (v : Word) : (s.poke h v).tlb = s.tlb := by cases h <;> rfl
@[simp] theorem State.poke_io (s : State) (h : Home) (v : Word) : (s.poke h v).io = s.io := by cases h <;> rfl
@[simp] theorem State.poke_trace (s : State) (h : Home) (v : Word) : (s.poke h v).trace = s.trace := by cases h <;> rfl
@[simp] theorem State.poke_draws (s : State) (h : Home) (v : Word) : (s.poke h v).draws = s.draws := by cases h <;> rfl
@[simp] theorem State.poke_params (s : State) (h : Home) (v : Word) : (s.poke h v).params = s.params := by cases h <;> rfl
@[simp] theorem State.writeReg_pc (s : State) (r : Reg) (v : Word) : (s.writeReg r v).pc = s.pc := State.poke_pc s _ v
@[simp] theorem State.writeReg_mem (s : State) (r : Reg) (v : Word) : (s.writeReg r v).mem = s.mem := State.poke_mem s _ v
@[simp] theorem State.writeReg_rom (s : State) (r : Reg) (v : Word) : (s.writeReg r v).rom = s.rom := State.poke_rom s _ v
@[simp] theorem State.writeReg_iplAttached (s : State) (r : Reg) (v : Word) : (s.writeReg r v).iplAttached = s.iplAttached := State.poke_iplAttached s _ v
@[simp] theorem State.writeReg_halted (s : State) (r : Reg) (v : Word) : (s.writeReg r v).halted = s.halted := State.poke_halted s _ v
@[simp] theorem State.writeReg_pending (s : State) (r : Reg) (v : Word) : (s.writeReg r v).pending = s.pending := State.poke_pending s _ v
@[simp] theorem State.writeReg_relocation (s : State) (r : Reg) (v : Word) : (s.writeReg r v).relocation = s.relocation := State.poke_relocation s _ v
@[simp] theorem State.writeReg_paging (s : State) (r : Reg) (v : Word) : (s.writeReg r v).paging = s.paging := State.poke_paging s _ v
@[simp] theorem State.writeReg_base (s : State) (r : Reg) (v : Word) : (s.writeReg r v).base = s.base := State.poke_base s _ v
@[simp] theorem State.writeReg_limit (s : State) (r : Reg) (v : Word) : (s.writeReg r v).limit = s.limit := State.poke_limit s _ v
@[simp] theorem State.writeReg_mmuCause (s : State) (r : Reg) (v : Word) : (s.writeReg r v).mmuCause = s.mmuCause := State.poke_mmuCause s _ v
@[simp] theorem State.writeReg_faultPage (s : State) (r : Reg) (v : Word) : (s.writeReg r v).faultPage = s.faultPage := State.poke_faultPage s _ v
@[simp] theorem State.writeReg_tlb (s : State) (r : Reg) (v : Word) : (s.writeReg r v).tlb = s.tlb := State.poke_tlb s _ v
@[simp] theorem State.writeReg_io (s : State) (r : Reg) (v : Word) : (s.writeReg r v).io = s.io := State.poke_io s _ v
@[simp] theorem State.writeReg_trace (s : State) (r : Reg) (v : Word) : (s.writeReg r v).trace = s.trace := State.poke_trace s _ v
@[simp] theorem State.writeReg_draws (s : State) (r : Reg) (v : Word) : (s.writeReg r v).draws = s.draws := State.poke_draws s _ v
@[simp] theorem State.writeReg_params (s : State) (r : Reg) (v : Word) : (s.writeReg r v).params = s.params := State.poke_params s _ v
@[simp] theorem State.drawReg_pc (s : State) (r : Reg) : (s.drawReg r).pc = s.pc := State.poke_pc s _ _
@[simp] theorem State.drawReg_mem (s : State) (r : Reg) : (s.drawReg r).mem = s.mem := State.poke_mem s _ _
@[simp] theorem State.drawReg_rom (s : State) (r : Reg) : (s.drawReg r).rom = s.rom := State.poke_rom s _ _
@[simp] theorem State.drawReg_iplAttached (s : State) (r : Reg) : (s.drawReg r).iplAttached = s.iplAttached := State.poke_iplAttached s _ _
@[simp] theorem State.drawReg_halted (s : State) (r : Reg) : (s.drawReg r).halted = s.halted := State.poke_halted s _ _
@[simp] theorem State.drawReg_pending (s : State) (r : Reg) : (s.drawReg r).pending = s.pending := State.poke_pending s _ _
@[simp] theorem State.drawReg_relocation (s : State) (r : Reg) : (s.drawReg r).relocation = s.relocation := State.poke_relocation s _ _
@[simp] theorem State.drawReg_paging (s : State) (r : Reg) : (s.drawReg r).paging = s.paging := State.poke_paging s _ _
@[simp] theorem State.drawReg_base (s : State) (r : Reg) : (s.drawReg r).base = s.base := State.poke_base s _ _
@[simp] theorem State.drawReg_limit (s : State) (r : Reg) : (s.drawReg r).limit = s.limit := State.poke_limit s _ _
@[simp] theorem State.drawReg_mmuCause (s : State) (r : Reg) : (s.drawReg r).mmuCause = s.mmuCause := State.poke_mmuCause s _ _
@[simp] theorem State.drawReg_faultPage (s : State) (r : Reg) : (s.drawReg r).faultPage = s.faultPage := State.poke_faultPage s _ _
@[simp] theorem State.drawReg_tlb (s : State) (r : Reg) : (s.drawReg r).tlb = s.tlb := State.poke_tlb s _ _
@[simp] theorem State.drawReg_io (s : State) (r : Reg) : (s.drawReg r).io = s.io := State.poke_io s _ _
@[simp] theorem State.drawReg_trace (s : State) (r : Reg) : (s.drawReg r).trace = s.trace := State.poke_trace s _ _
@[simp] theorem State.drawReg_params (s : State) (r : Reg) : (s.drawReg r).params = s.params := State.poke_params s _ _
@[simp] theorem State.drawReg_draws (s : State) (r : Reg) : (s.drawReg r).draws = s.draws + 1 := rfl

/-! ### FLAG's bits under each update -/

@[simp] theorem Flag.setZS_e (f : Flag) (r : Word) : (f.setZS r).e = f.e := rfl
@[simp] theorem Flag.setZS_p (f : Flag) (r : Word) : (f.setZS r).p = f.p := rfl
@[simp] theorem Flag.setZS_i (f : Flag) (r : Word) : (f.setZS r).i = f.i := rfl
@[simp] theorem Flag.setZS_v (f : Flag) (r : Word) : (f.setZS r).v = f.v := rfl
@[simp] theorem Flag.setZS_c (f : Flag) (r : Word) : (f.setZS r).c = f.c := rfl
@[simp] theorem Flag.setZS_s (f : Flag) (r : Word) : (f.setZS r).s = r.msb := rfl
@[simp] theorem Flag.setZS_z (f : Flag) (r : Word) : (f.setZS r).z = decide (r = 0) := rfl
@[simp] theorem Flag.setCV_e (f : Flag) (c v : Bool) : (f.setCV c v).e = f.e := rfl
@[simp] theorem Flag.setCV_p (f : Flag) (c v : Bool) : (f.setCV c v).p = f.p := rfl
@[simp] theorem Flag.setCV_i (f : Flag) (c v : Bool) : (f.setCV c v).i = f.i := rfl
@[simp] theorem Flag.setCV_v (f : Flag) (c v : Bool) : (f.setCV c v).v = v := rfl
@[simp] theorem Flag.setCV_c (f : Flag) (c v : Bool) : (f.setCV c v).c = c := rfl
@[simp] theorem Flag.setCV_s (f : Flag) (c v : Bool) : (f.setCV c v).s = f.s := rfl
@[simp] theorem Flag.setCV_z (f : Flag) (c v : Bool) : (f.setCV c v).z = f.z := rfl
@[simp] theorem Flag.enterTrap_e (f : Flag) : (f.enterTrap).e = false := rfl
@[simp] theorem Flag.enterTrap_p (f : Flag) : (f.enterTrap).p = true := rfl
@[simp] theorem Flag.enterTrap_i (f : Flag) : (f.enterTrap).i = f.i := rfl
@[simp] theorem Flag.enterTrap_v (f : Flag) : (f.enterTrap).v = f.v := rfl
@[simp] theorem Flag.enterTrap_c (f : Flag) : (f.enterTrap).c = f.c := rfl
@[simp] theorem Flag.enterTrap_s (f : Flag) : (f.enterTrap).s = f.s := rfl
@[simp] theorem Flag.enterTrap_z (f : Flag) : (f.enterTrap).z = f.z := rfl

/-! ### FLAG and the registers -/

@[simp] theorem Flag.setCV_self_of_mode (f : Flag) (c v : Bool) :
    (f.setCV c v).e = f.e ∧ (f.setCV c v).p = f.p ∧ (f.setCV c v).i = f.i := ⟨rfl, rfl, rfl⟩

/-- `FlagWrite` in user mode keeps E, P and I (10_state.md R29). -/
theorem Flag.write_user (f : Flag) (w : Word) (h : f.p = false) :
    (f.write w).e = f.e ∧ (f.write w).p = f.p ∧ (f.write w).i = f.i := by simp [Flag.write, h]

/-- FLAG's word has bits 15 to 8 and bit 4 clear and is read back whole by `Flag.ofWord` (10_state.md R26). -/
@[simp] theorem Flag.ofWord_toWord (f : Flag) : Flag.ofWord f.toWord = f := by
  obtain ⟨e, p, i, v, c, s, z⟩ := f
  cases e <;> cases p <;> cases i <;> cases v <;> cases c <;> cases s <;> cases z <;> rfl

/-- FLAG's word, bit by bit (10_state.md R26). -/
theorem Flag.toWord_getLsbD (f : Flag) (j : Nat) :
    f.toWord.getLsbD j = [f.z, f.s, f.c, f.v, false, f.i, f.p, f.e].getD j false := by
  by_cases hj : j < 16
  · obtain ⟨e, p, i, v, c, s, z⟩ := f
    interval_cases j <;> clear hj <;> revert e p i v c s z <;> decide
  · rw [BitVec.getLsbD_of_ge _ _ (by omega), List.getD_eq_default _ _ (by simp; omega)]

/-- Reading a general register after writing one. -/
@[simp] theorem Regs.get_set (x : Regs) (a b : Gr) (v : Word) : (x.set a v).get b = if b = a then v else x.get b := by
  cases a <;> cases b <;> rfl

/-- Reading a register after writing one; FLAG reads back through `FlagWrite`. -/
theorem State.peek_poke (s : State) (h g : Home) (v : Word) :
    (s.poke h v).peek g = if g = h then (if h = .flag then (s.flag.write v).toWord else v) else s.peek g := by
  cases h <;> cases g <;> simp [State.peek, State.poke]

@[simp] theorem State.peek_poke_self (s : State) (h : Home) (v : Word) (hf : h ≠ .flag) : (s.poke h v).peek h = v := by
  simp [State.peek_poke, hf]

theorem State.peek_poke_ne (s : State) (h g : Home) (v : Word) (hg : g ≠ h) : (s.poke h v).peek g = s.peek g := by
  simp [State.peek_poke, hg]

/-- A register write that is not to FLAG leaves FLAG. -/
@[simp] theorem State.writeReg_flag_of_ne (s : State) (r : Reg) (v : Word) (h : r ≠ .flag) :
    (s.writeReg r v).flag = s.flag := by
  cases r with
  | gen g => rfl
  | sp => cases hp : s.flag.p <;> simp [State.writeReg, homeOf, hp, State.poke]
  | usp => rfl
  | flag => exact absurd rfl h

/-- The home of a register other than FLAG is not FLAG's. -/
@[simp] theorem homeOf_ne_flag (r : Reg) (p : Bool) (h : r ≠ .flag) : homeOf r p ≠ .flag := by
  cases r <;> cases p <;> simp_all [homeOf]

/-! ### A reset of a running machine (70_reset_and_hazards.md R400) -/

@[simp] theorem State.afterReset_pc (s : State) : s.afterReset.pc = s.params.resetPc := rfl
@[simp] theorem State.afterReset_params (s : State) : s.afterReset.params = s.params := rfl
@[simp] theorem State.afterReset_rom (s : State) : s.afterReset.rom = s.rom := rfl
@[simp] theorem State.afterReset_trace (s : State) : s.afterReset.trace = s.trace := rfl
@[simp] theorem State.afterReset_draws (s : State) : s.afterReset.draws = s.draws := rfl
@[simp] theorem State.afterReset_mem (s : State) : s.afterReset.mem = [] := rfl
@[simp] theorem State.afterReset_iplAttached (s : State) : s.afterReset.iplAttached = true := rfl
@[simp] theorem State.afterReset_flag (s : State) : s.afterReset.flag = Flag.reset := rfl
@[simp] theorem State.afterReset_halted (s : State) : s.afterReset.halted = false := rfl
@[simp] theorem State.afterReset_pending (s : State) : s.afterReset.pending = 0 := rfl

end Sys2Proof.Machine
end

