-- ==== Sys2Proof/Laws/Memory.lean ====
section
/-! SUPPORT. The laws of memory: reading after writing, the canonical form, and the bytes the machine reads. -/

namespace Sys2Proof.Machine

/-! ### The sorted list -/

/-- Reading after writing. -/
@[simp] theorem Memory.get?_put (m : Memory) (a b : Nat) (v : Byte) :
    Memory.get? (Memory.put m a v) b = if b = a then some v else Memory.get? m b := by
  induction m with
  | nil => simp [Memory.put, Memory.get?]
  | cons c rest ih =>
    obtain ⟨d, w⟩ := c
    simp only [Memory.put]
    split
    · simp [Memory.get?]
    · split
      · subst_vars; simp only [Memory.get?]; split <;> simp_all
      · simp only [Memory.get?, ih]; split <;> split <;> simp_all

/-- The addresses listed after writing. -/
theorem Memory.mem_put (m : Memory) (a : Nat) (v : Byte) (c : Host.Cell) (h : c ∈ Memory.put m a v) :
    c = (a, v) ∨ c ∈ m := by
  induction m with
  | nil => simpa [Memory.put] using h
  | cons d rest ih =>
    obtain ⟨d, w⟩ := d
    simp only [Memory.put] at h
    split at h
    · simpa using h
    · split at h
      · simp at h; rcases h with h | h <;> simp [h]
      · simp at h
        rcases h with h | h
        · simp [h]
        · rcases ih h with h | h <;> simp [h]

/-- The addresses listed after erasing. -/
theorem Memory.mem_erase (m : Memory) (a : Nat) (c : Host.Cell) (h : c ∈ Memory.erase m a) : c ∈ m := by
  induction m with
  | nil => simp [Memory.erase] at h
  | cons d rest ih =>
    obtain ⟨d, w⟩ := d
    simp only [Memory.erase] at h
    split at h
    · simp [h]
    · simp at h
      rcases h with h | h
      · simp [h]
      · simp [ih h]

/-- The canonical form of a nonempty list. -/
theorem Memory.wf_cons (limit : Nat) (c : Host.Cell) (m : Memory) :
    Memory.wf limit (c :: m) ↔ c.1 < limit ∧ (∀ d ∈ m, c.1 < d.1) ∧ Memory.wf limit m := by
  simp only [Memory.wf, List.map_cons, List.pairwise_cons, List.mem_map, List.mem_cons]
  constructor
  · rintro ⟨⟨h1, h2⟩, h3⟩
    exact ⟨h3 _ (.inl rfl), fun d hd => h1 _ ⟨d, hd, rfl⟩, h2, fun a ha => h3 a (.inr ha)⟩
  · rintro ⟨h1, h2, h3, h4⟩
    refine ⟨⟨?_, h3⟩, ?_⟩
    · rintro a ⟨d, hd, rfl⟩; exact h2 d hd
    · rintro a (rfl | ha)
      · exact h1
      · exact h4 a ha

/-- A write keeps the canonical form. -/
theorem Memory.wf_put (limit : Nat) (m : Memory) (a : Nat) (v : Byte) (ha : a < limit) (h : Memory.wf limit m) :
    Memory.wf limit (Memory.put m a v) := by
  induction m with
  | nil => simp [Memory.put, Memory.wf, ha]
  | cons c rest ih =>
    obtain ⟨d, w⟩ := c
    obtain ⟨h1, h2, h3⟩ := (Memory.wf_cons _ _ _).1 h
    simp only [Memory.put]
    split
    · rename_i hlt
      refine (Memory.wf_cons _ _ _).2 ⟨ha, ?_, h⟩
      intro c hc
      rcases List.mem_cons.1 hc with rfl | hc
      · exact hlt
      · exact lt_trans hlt (h2 c hc)
    · split
      · rename_i _ he
        subst he
        exact (Memory.wf_cons _ _ _).2 ⟨ha, h2, h3⟩
      · refine (Memory.wf_cons _ _ _).2 ⟨h1, ?_, ih h3⟩
        intro c hc
        rcases Memory.mem_put _ _ _ _ hc with rfl | hc
        · simp only at *; omega
        · exact h2 c hc

/-- Erasing keeps the canonical form. -/
theorem Memory.wf_erase (limit : Nat) (m : Memory) (a : Nat) (h : Memory.wf limit m) :
    Memory.wf limit (Memory.erase m a) := by
  induction m with
  | nil => exact h
  | cons c rest ih =>
    obtain ⟨d, w⟩ := c
    obtain ⟨h1, h2, h3⟩ := (Memory.wf_cons _ _ _).1 h
    simp only [Memory.erase]
    split
    · exact h3
    · exact (Memory.wf_cons _ _ _).2 ⟨h1, fun c hc => h2 c (Memory.mem_erase _ _ _ hc), ih h3⟩

/-- An address below every listed one is not listed. -/
theorem Memory.get?_of_lt (m : Memory) (a : Nat) (h : ∀ d ∈ m, a < d.1) : Memory.get? m a = none := by
  induction m with
  | nil => rfl
  | cons c rest ih =>
    obtain ⟨d, w⟩ := c
    have h1 := h (d, w) (by simp)
    simp only [Memory.get?, ih fun e he => h e (by simp [he])]
    simp only at h1
    rw [if_neg (by omega)]

/-- Reading after erasing. -/
theorem Memory.get?_erase (limit : Nat) (m : Memory) (a b : Nat) (h : Memory.wf limit m) :
    Memory.get? (Memory.erase m a) b = if b = a then none else Memory.get? m b := by
  induction m with
  | nil => simp [Memory.erase, Memory.get?]
  | cons c rest ih =>
    obtain ⟨d, w⟩ := c
    obtain ⟨h1, h2, h3⟩ := (Memory.wf_cons _ _ _).1 h
    simp only [Memory.erase]
    split
    · rename_i he
      subst he
      simp only [Memory.get?]
      split
      · rename_i hb; subst hb; exact Memory.get?_of_lt _ _ h2
      · rfl
    · simp only [Memory.get?, ih h3]
      split <;> split <;> simp_all

/-- A device register write keeps the canonical form of the registers. -/
theorem ioWf_setIoReg (s : State) (a : Nat) (v : Byte) (ha : a < 256) (h : ioWf s.io) : ioWf (s.setIoReg a v).io := by
  simp only [State.setIoReg_io]
  split
  · exact ⟨Memory.wf_erase _ _ _ h.1, fun c hc => h.2 c (Memory.mem_erase _ _ _ hc)⟩
  · refine ⟨Memory.wf_put _ _ _ _ ha h.1, fun c hc => ?_⟩
    rcases Memory.mem_put _ _ _ _ hc with rfl | hc
    · assumption
    · exact h.2 c hc

/-- Reading a device register after writing one. -/
theorem State.ioReg_setIoReg (s : State) (a p : Nat) (v : Byte) (h : ioWf s.io) :
    (s.setIoReg a v).ioReg p = if p = a then v else s.ioReg p := by
  simp only [State.ioReg, State.setIoReg]
  split
  · rename_i hv
    simp only [Memory.get?_erase 256 _ _ _ h.1]
    split
    · rename_i hp; subst hp; simp [hv]
    · rfl
  · simp only [Memory.get?_put]
    split <;> rfl

/-! ### TLB entries -/

/-- Reading a TLB entry after writing one. -/
theorem State.tlbEntry_setTlb (s : State) (n k : Nat) (v : BitVec 24) (hk : k < 8) :
    (s.setTlb n v).tlbEntry k = if k = n then v else s.tlbEntry k := by
  simp only [State.tlbEntry, State.setTlb, List.getD_eq_getElem?_getD, Vector.toList_setIfInBounds, List.getElem?_set,
    Vector.length_toList]
  by_cases h : k = n
  · subst h; simp [hk]
  · rw [if_neg (Ne.symm h), if_neg h]

/-- The three bytes of an entry made of three bytes. -/
@[simp] theorem tlbPageOf_tlbOfBytes (page high low : Byte) : tlbPageOf (tlbOfBytes page high low) = page := by
  apply BitVec.eq_of_toNat_eq
  have h1 := page.isLt; have h2 := high.isLt; have h3 := low.isLt
  simp only [tlbPageOf, tlbOfBytes, BitVec.extractLsb'_toNat, Nat.shiftRight_eq_div_pow, toNat_append_eq]
  omega

@[simp] theorem tlbHighOf_tlbOfBytes (page high low : Byte) : tlbHighOf (tlbOfBytes page high low) = high := by
  apply BitVec.eq_of_toNat_eq
  have h1 := page.isLt; have h2 := high.isLt; have h3 := low.isLt
  simp only [tlbHighOf, tlbOfBytes, BitVec.extractLsb'_toNat, Nat.shiftRight_eq_div_pow, toNat_append_eq]
  omega

@[simp] theorem tlbFrame_tlbOfBytes (page high low : Byte) : tlbFrame (tlbOfBytes page high low) = low := by
  apply BitVec.eq_of_toNat_eq
  have h1 := page.isLt; have h2 := high.isLt; have h3 := low.isLt
  simp only [tlbFrame, tlbOfBytes, BitVec.extractLsb'_toNat, Nat.shiftRight_eq_div_pow, toNat_append_eq]
  omega

/-- An entry is its three bytes. -/
theorem tlbOfBytes_bytes (e : BitVec 24) : tlbOfBytes (tlbPageOf e) (tlbHighOf e) (tlbFrame e) = e := by
  apply BitVec.eq_of_toNat_eq
  have h := e.isLt
  simp only [tlbPageOf, tlbHighOf, tlbFrame, tlbOfBytes, BitVec.extractLsb'_toNat, Nat.shiftRight_eq_div_pow,
    toNat_append_eq]
  omega

/-! ### Bytes and words -/

/-- A word is its two bytes (20_memory.md R50). -/
@[simp] theorem wordOfBytes_high_low (w : Word) : wordOfBytes (highByte w) (lowByte w) = w := by
  simp only [wordOfBytes, highByte, lowByte]
  ext i hi
  simp only [BitVec.getElem_append, BitVec.getElem_extractLsb']
  split <;> simp_all

@[simp] theorem highByte_wordOfBytes (a b : Byte) : highByte (wordOfBytes a b) = a := by
  simp only [wordOfBytes, highByte]
  ext i hi
  simp only [BitVec.getElem_extractLsb']
  rw [BitVec.getLsbD_append]
  simp [hi]

@[simp] theorem lowByte_wordOfBytes (a b : Byte) : lowByte (wordOfBytes a b) = b := by
  simp only [wordOfBytes, lowByte]
  ext i hi
  simp only [BitVec.getElem_extractLsb']
  rw [BitVec.getLsbD_append]
  simp [hi]

/-- The address after another is another. -/
theorem word_succ_ne (a : Word) : a + 1 ≠ a := by bv_omega

/-- What is covered depends on the attachment alone. -/
theorem State.iplCovers_congr (s t : State) (h : t.iplAttached = s.iplAttached) (a : Word) :
    t.iplCovers a = s.iplCovers a := by simp [State.iplCovers, h]

/-- The byte read is determined by the two memories and the attachment. -/
theorem State.byteAt_congr (s t : State) (hm : t.mem = s.mem) (hr : t.rom = s.rom) (ha : t.iplAttached = s.iplAttached)
    (a : Word) : t.byteAt a = s.byteAt a := by simp [State.byteAt, State.iplCovers, hm, hr, ha]

/-- The word read is determined by the two memories and the attachment. -/
theorem State.wordAt_congr (s t : State) (hm : t.mem = s.mem) (hr : t.rom = s.rom) (ha : t.iplAttached = s.iplAttached)
    (a : Word) : t.wordAt a = s.wordAt a := by
  simp [State.wordAt, State.byteAt_congr s t hm hr ha]

/-- Reading a byte after storing one where the IPL ROM does not cover it. -/
theorem State.byteAt_storeByte (s : State) (a b : Word) (v : Byte) (h : s.iplCovers a = false) :
    (s.storeByte a v).byteAt b = if b = a then v else s.byteAt b := by
  have hc : (s.storeByte a v).iplCovers b = s.iplCovers b := rfl
  simp only [State.byteAt, hc, State.storeByte_rom, State.storeByte_mem, Memory.get?_put, ← BitVec.toNat_inj]
  split
  · split
    · rename_i h1 h2
      rw [BitVec.toNat_inj] at h2; subst h2; simp [h] at h1
    · rfl
  · split <;> rfl

/-- An even address and the one after it are covered alike. -/
theorem State.iplCovers_succ (s : State) (a : Word) (h : a.toNat % 2 = 0) : s.iplCovers (a + 1) = s.iplCovers a := by
  have h1 : (a + 1).toNat = a.toNat + 1 := by
    have := a.isLt
    rw [BitVec.toNat_add]; simp; omega
  have h2 : iplBase ≤ a.toNat + 1 ↔ iplBase ≤ a.toNat := by simp only [iplBase]; omega
  simp only [State.iplCovers, h1, h2]

/-- Reading a byte after storing a word at an even address that the IPL ROM does not cover. -/
theorem State.byteAt_storeWord (s : State) (a b v : Word) (he : a.toNat % 2 = 0) (h : s.iplCovers a = false) :
    (s.storeWord a v).byteAt b = if b = a + 1 then lowByte v else if b = a then highByte v else s.byteAt b := by
  have h1 : (s.storeByte a (highByte v)).iplCovers (a + 1) = false := by
    rw [State.iplCovers_congr s (s.storeByte a (highByte v)) rfl, State.iplCovers_succ s a he, h]
  rw [State.storeWord, State.byteAt_storeByte _ _ _ _ h1]
  split
  · rfl
  · rw [State.byteAt_storeByte _ _ _ _ h]

/-- The word stored is the word read (20_memory.md R51). -/
theorem State.wordAt_storeWord (s : State) (a v : Word) (he : a.toNat % 2 = 0) (h : s.iplCovers a = false) :
    (s.storeWord a v).wordAt a = v := by
  rw [State.wordAt, State.byteAt_storeWord s a _ v he h, State.byteAt_storeWord s a _ v he h,
    if_neg (word_succ_ne a).symm, if_pos rfl, if_pos rfl, wordOfBytes_high_low]

/-- A word apart from the one stored reads as before. -/
theorem State.wordAt_storeWord_ne (s : State) (a b v : Word) (he : a.toNat % 2 = 0) (hb : b.toNat % 2 = 0)
    (hne : b ≠ a) (h : s.iplCovers a = false) : (s.storeWord a v).wordAt b = s.wordAt b := by
  have h1 : b ≠ a + 1 := by rintro rfl; bv_omega
  have h2 : b + 1 ≠ a := by rintro rfl; bv_omega
  have h3 : b + 1 ≠ a + 1 := by intro hc; apply hne; bv_omega
  rw [State.wordAt, State.byteAt_storeWord s a _ v he h, State.byteAt_storeWord s a _ v he h, if_neg h1, if_neg hne,
    if_neg h3, if_neg h2]
  rfl

end Sys2Proof.Machine
end

