-- ==== Sys2Proof/Laws/Ops.lean ====
section
/-! SUPPORT. What each shared operation can do, said once: if it answers, then this is what it answered; and where it is
sure to answer. The proofs cite these lemmas instead of unfolding the operations. -/

namespace Sys2Proof.Machine

/-! ### Word and byte accesses -/

theorem State.admitWord_ok {s : State} {a b : Word} (h : s.admitWord a = .ok b) :
    s.mmuOn = false ∧ b.toNat % 2 = 0 ∧ (a.toNat % 2 = 0 → b = a) := by
  simp only [State.admitWord] at h
  split at h
  · cases h
  · rename_i hm
    split at h
    · cases h; simp_all
    · rename_i ho
      split at h
      · cases h
      · cases h
        refine ⟨by simpa using hm, ?_, fun he => absurd he ho⟩
        have h0 : (a &&& 0xFFFE).getLsbD 0 = false := by simp
        rw [BitVec.getLsbD, Nat.testBit_zero, decide_eq_false_iff_not] at h0
        omega
      · cases h

theorem State.admitWord_readable {s : State} {a : Word} (h : s.wordReadable a) : s.admitWord a = .ok a := by
  simp [State.admitWord, h.1, h.2]

theorem State.admitByte_ok {s : State} {a b : Word} (h : s.admitByte a = .ok b) : s.mmuOn = false ∧ b = a := by
  simp only [State.admitByte] at h
  split at h
  · cases h
  · cases h; simp_all

theorem State.readWord_ok {s : State} {a v : Word} (h : s.readWord a = .ok v) :
    s.mmuOn = false ∧ ∃ b, b.toNat % 2 = 0 ∧ (a.toNat % 2 = 0 → b = a) ∧ v = s.wordAt b := by
  simp only [State.readWord] at h
  split at h
  · rename_i b hb
    cases h
    obtain ⟨h1, h2, h3⟩ := State.admitWord_ok hb
    exact ⟨h1, b, h2, h3, rfl⟩
  · cases h

theorem State.readWord_readable {s : State} {a : Word} (h : s.wordReadable a) : s.readWord a = .ok (s.wordAt a) := by
  simp [State.readWord, State.admitWord_readable h]

theorem State.readByte_ok {s : State} {a : Word} {v : Byte} (h : s.readByte a = .ok v) :
    s.mmuOn = false ∧ v = s.byteAt a := by
  simp only [State.readByte] at h
  split at h
  · rename_i b hb
    cases h
    obtain ⟨h1, rfl⟩ := State.admitByte_ok hb
    exact ⟨h1, rfl⟩
  · cases h

theorem State.readByte_mmuOff {s : State} (a : Word) (h : s.mmuOn = false) : s.readByte a = .ok (s.byteAt a) := by
  simp [State.readByte, State.admitByte, h]

theorem State.writeWord_ok {s t : State} {a v : Word} (h : s.writeWord a v = .ok t) :
    s.mmuOn = false ∧ ∃ b, b.toNat % 2 = 0 ∧ (a.toNat % 2 = 0 → b = a) ∧ s.iplCovers b = false ∧ t = s.storeWord b v := by
  simp only [State.writeWord] at h
  split at h
  · rename_i b hb
    obtain ⟨h1, h2, h3⟩ := State.admitWord_ok hb
    split at h
    · cases h
    · cases h; exact ⟨h1, b, h2, h3, by simp_all, rfl⟩
  · cases h

theorem State.writeWord_writable {s : State} {a : Word} (v : Word) (h : s.wordWritable a) :
    s.writeWord a v = .ok (s.storeWord a v) := by
  simp [State.writeWord, State.admitWord_readable h.1, h.2]

theorem State.writeByte_ok {s t : State} {a : Word} {v : Byte} (h : s.writeByte a v = .ok t) :
    s.mmuOn = false ∧ s.iplCovers a = false ∧ t = s.storeByte a v := by
  simp only [State.writeByte] at h
  split at h
  · rename_i b hb
    obtain ⟨h1, rfl⟩ := State.admitByte_ok hb
    split at h
    · cases h
    · cases h; exact ⟨h1, by simp_all, rfl⟩
  · cases h

theorem State.writeByte_writable {s : State} {a : Word} (v : Byte) (h : s.byteWritable a) :
    s.writeByte a v = .ok (s.storeByte a v) := by
  simp [State.writeByte, State.admitByte, h.1, h.2]

/-! ### The stack -/

theorem State.push_ok {s t : State} {v : Word} (h : s.push v = .ok t) :
    s.mmuOn = false ∧ ∃ b, b.toNat % 2 = 0 ∧ ((s.readReg .sp).toNat % 2 = 0 → b = s.readReg .sp - 2) ∧
      s.iplCovers b = false ∧ t = (s.storeWord b v).writeReg .sp (s.readReg .sp - 2) := by
  simp only [State.push] at h
  split at h
  · rename_i u hu
    cases h
    obtain ⟨h1, b, h2, h3, h4, rfl⟩ := State.writeWord_ok hu
    exact ⟨h1, b, h2, fun he => h3 (by bv_omega), h4, rfl⟩
  · cases h

theorem State.push_writable {s : State} (v : Word) (h : s.wordWritable (s.readReg .sp - 2)) :
    s.push v = .ok ((s.storeWord (s.readReg .sp - 2) v).writeReg .sp (s.readReg .sp - 2)) := by
  simp only [State.push, State.writeWord_writable v h]

theorem State.pop_ok {s t : State} {v : Word} (h : s.pop = .ok (v, t)) :
    s.mmuOn = false ∧ (∃ b, b.toNat % 2 = 0 ∧ ((s.readReg .sp).toNat % 2 = 0 → b = s.readReg .sp) ∧ v = s.wordAt b) ∧
      t = s.writeReg .sp (s.readReg .sp + 2) := by
  simp only [State.pop] at h
  split at h
  · rename_i u hu
    cases h
    obtain ⟨h1, h2⟩ := State.readWord_ok hu
    exact ⟨h1, h2, rfl⟩
  · cases h

theorem State.pop_readable {s : State} (h : s.wordReadable (s.readReg .sp)) :
    s.pop = .ok (s.wordAt (s.readReg .sp), s.writeReg .sp (s.readReg .sp + 2)) := by
  simp only [State.pop, State.readWord_readable h]

/-! ### Trap entry and return -/

/-- The state trap entry leaves: the two words stored, SSP 4 lower, P set and E cleared, pc at the handler. -/
def State.trapped (s : State) (n : Nat) (a b savedPc : Word) : State :=
  let m := (s.storeWord a savedPc).storeWord b s.flag.toWord
  ((m.setFlag s.flag.enterTrap).setSsp (s.ssp - 4)).goto (m.wordAt (vectorAddress n))

/-- SP is SSP once P is set. -/
theorem State.readReg_sp_privileged {s : State} (h : s.flag.p = true) : s.readReg .sp = s.ssp := by
  simp [State.readReg, homeOf, h, State.peek]

theorem State.writeReg_sp_privileged {s : State} (v : Word) (h : s.flag.p = true) :
    s.writeReg .sp v = s.setSsp v := by
  simp [State.writeReg, homeOf, h, State.poke]

/-- SP is USP in user mode. -/
theorem State.readReg_sp_user {s : State} (h : s.flag.p = false) : s.readReg .sp = s.usp := by
  simp [State.readReg, homeOf, h, State.peek]

theorem State.writeReg_sp_user {s : State} (v : Word) (h : s.flag.p = false) :
    s.writeReg .sp v = s.setUsp v := by
  simp [State.writeReg, homeOf, h, State.poke]

theorem vectorAddress_even (n : Nat) : (vectorAddress n).toNat % 2 = 0 := by
  simp only [vectorAddress, BitVec.toNat_ofNat]; omega

/-- What trap entry can do: the two words of the frame at the places SSP - 2 and SSP - 4 (or, with an odd SSP, where
MISALIGNED_WORD puts them), and `State.trapped`. -/
theorem State.trapFrame_ok {s t : State} {n : Nat} {pc : Word} (h : s.trapFrame n pc = .ok t) :
    s.mmuOn = false ∧ ∃ a b, a.toNat % 2 = 0 ∧ b.toNat % 2 = 0 ∧ s.iplCovers a = false ∧ s.iplCovers b = false ∧
      (s.ssp.toNat % 2 = 0 → a = s.ssp - 2 ∧ b = s.ssp - 4) ∧ t = s.trapped n a b pc := by
  simp only [State.trapFrame] at h
  split at h
  · cases h
  rename_i u hu
  split at h
  · cases h
  rename_i w hw
  split at h
  · cases h
  rename_i x hx
  cases h
  obtain ⟨hm, a, ha, hae, hac, rfl⟩ := State.push_ok hu
  rw [State.readReg_sp_privileged (s := s.setFlag s.flag.enterTrap) rfl] at hae hw
  rw [State.writeReg_sp_privileged _ (by rfl)] at hw
  obtain ⟨-, b, hb, hbe, hbc, rfl⟩ := State.push_ok hw
  rw [State.readReg_sp_privileged (by rfl)] at hbe hx ⊢
  rw [State.writeReg_sp_privileged _ (by rfl)] at hx ⊢
  obtain ⟨-, c, -, hce, rfl⟩ := State.readWord_ok hx
  rw [hce (vectorAddress_even n)]
  have h4 : s.ssp - 2 - 2 = s.ssp - 4 := by bv_omega
  simp only [State.setSsp_ssp, State.setFlag_ssp, h4] at hae hbe ⊢
  exact ⟨hm, a, b, ha, hb, hac, hbc, fun he => ⟨hae he, hbe (by bv_omega)⟩, rfl⟩

/-- Where trap entry is sure to complete. -/
theorem State.trapFrame_writable {s : State} (n : Nat) (pc : Word) (h : s.frameWritable) :
    s.trapFrame n pc = .ok (s.trapped n (s.ssp - 2) (s.ssp - 4) pc) := by
  obtain ⟨h1, h2⟩ := h
  have h4 : s.ssp - 2 - 2 = s.ssp - 4 := by bv_omega
  have e1 : (s.setFlag s.flag.enterTrap).push pc =
      .ok (((s.storeWord (s.ssp - 2) pc).setFlag s.flag.enterTrap).setSsp (s.ssp - 2)) := by
    rw [State.push_writable, State.readReg_sp_privileged (by rfl), State.writeReg_sp_privileged _ (by rfl)]
    · rfl
    · rw [State.readReg_sp_privileged (by rfl)]; exact h1
  have e2 : (((s.storeWord (s.ssp - 2) pc).setFlag s.flag.enterTrap).setSsp (s.ssp - 2)).push s.flag.toWord =
      .ok ((((s.storeWord (s.ssp - 2) pc).storeWord (s.ssp - 4) s.flag.toWord).setFlag s.flag.enterTrap).setSsp
        (s.ssp - 4)) := by
    rw [State.push_writable, State.readReg_sp_privileged (by rfl), State.writeReg_sp_privileged _ (by rfl)]
    · simp only [State.setSsp_ssp, h4]; rfl
    · rw [State.readReg_sp_privileged (by rfl)]
      simp only [State.setSsp_ssp, h4]
      exact h2
  have e3 : ((((s.storeWord (s.ssp - 2) pc).storeWord (s.ssp - 4) s.flag.toWord).setFlag s.flag.enterTrap).setSsp
      (s.ssp - 4)).readWord (vectorAddress n) =
      .ok (((s.storeWord (s.ssp - 2) pc).storeWord (s.ssp - 4) s.flag.toWord).wordAt (vectorAddress n)) :=
    State.readWord_readable ⟨h1.1.1, vectorAddress_even n⟩
  simp only [State.trapFrame, e1, e2, e3]
  rfl

theorem State.trapEntry_next {s t : State} {n : Nat} {pc : Word} (h : s.trapEntry n pc = .next t) :
    s.trapFrame n pc = .ok t := by
  simp only [State.trapEntry] at h
  split at h <;> simp_all

theorem State.trapEntry_writable {s : State} (n : Nat) (pc : Word) (h : s.frameWritable) :
    s.trapEntry n pc = .next (s.trapped n (s.ssp - 2) (s.ssp - 4) pc) := by
  simp [State.trapEntry, State.trapFrame_writable n pc h]

/-- What taking an exception can do: the trap entry of its vector, from the same state but for the recorded cause and the
draws. -/
theorem State.raise_next {s t : State} {x : Exn} {npc : Word} (h : s.raise x npc = .next t) :
    ∃ (c p : Word) (k : Nat) (pc : Word),
      ({ s with mmuCause := c, faultPage := p, draws := k } : State).trapFrame x.vector pc = .ok t := by
  have hr : ∃ c p k, s.recordCause x = { s with mmuCause := c, faultPage := p, draws := k } := by
    cases x <;> exact ⟨_, _, _, rfl⟩
  obtain ⟨c, p, k, hr⟩ := hr
  simp only [State.raise, hr] at h
  split at h
  · exact ⟨c, p, k, _, State.trapEntry_next h⟩
  · exact ⟨c, p, k, _, State.trapEntry_next h⟩
  · exact ⟨c, p, _, _, State.trapEntry_next h⟩

/-- An instruction's outcome is its own state or an exception taken. -/
theorem State.conclude_next {s t : State} {npc : Word} {r : Access State} (h : s.conclude npc r = .next t) :
    r = .ok t ∨ ∃ x, r = .error (.raise x) ∧ s.raise x npc = .next t := by
  simp only [State.conclude] at h
  split at h
  · left; simp_all
  · right; exact ⟨_, rfl, h⟩
  · cases h

/-- Where the accesses of an instruction stopped, a next state is an exception taken. -/
theorem State.conclude_error_next {s t : State} {npc : Word} {e : Stop} (h : s.conclude npc (.error e) = .next t) :
    ∃ x, s.raise x npc = .next t := by
  rcases State.conclude_next h with h | ⟨x, -, h⟩
  · cases h
  · exact ⟨x, h⟩

theorem State.trapReturn_ok {s t : State} (h : s.trapReturn = .ok t) :
    s.mmuOn = false ∧ ∃ f p, t = ((s.writeReg .sp (s.readReg .sp + 4)).writeReg .flag f).goto p := by
  simp only [State.trapReturn] at h
  split at h
  · cases h
  rename_i f hf
  split at h
  · cases h
  rename_i p hp
  cases h
  exact ⟨(State.readWord_ok hf).1, f, p, rfl⟩

theorem State.trapReturn_readable {s : State} (h1 : s.wordReadable (s.readReg .sp))
    (h2 : s.wordReadable (s.readReg .sp + 2)) :
    s.trapReturn = .ok (((s.writeReg .sp (s.readReg .sp + 4)).writeReg .flag (s.wordAt (s.readReg .sp))).goto
      (s.wordAt (s.readReg .sp + 2))) := by
  simp only [State.trapReturn, State.readWord_readable h1, State.readWord_readable h2]

/-! ### The instruction shapes -/

theorem State.load_next {s t : State} {rd : Reg} {ea : Ea} (h : s.load rd ea = .next t) :
    (∃ v, s.value ea = .ok v ∧ t = (s.writeReg rd v).goto (s.npcEa ea)) ∨ ∃ x, s.raise x (s.npcEa ea) = .next t := by
  simp only [State.load] at h
  split at h
  · rename_i v hv; cases h; exact .inl ⟨v, hv, rfl⟩
  · exact .inr (State.conclude_error_next h)

theorem State.storeValue_ok {s t : State} {m : MemEa} {v : Word} (h : s.storeValue m v = .ok t) :
    s.mmuOn = false ∧ ((s.iplCovers (s.addr m) = false ∧ t = s.storeByte (s.addr m) (lowByte v)) ∨
      ∃ b, b.toNat % 2 = 0 ∧ s.iplCovers b = false ∧ t = s.storeWord b v) := by
  simp only [State.storeValue] at h
  split at h
  · obtain ⟨h1, h2, h3⟩ := State.writeByte_ok h
    exact ⟨h1, .inl ⟨h2, h3⟩⟩
  · obtain ⟨h1, b, h2, -, h3, h4⟩ := State.writeWord_ok h
    exact ⟨h1, .inr ⟨b, h2, h3, h4⟩⟩

theorem State.store_next {s t : State} {rd : Reg} {m : MemEa} (h : s.store rd m = .next t) :
    (∃ u, s.storeValue m (s.readReg rd) = .ok u ∧ t = u.goto (s.npcMem m)) ∨ ∃ x, s.raise x (s.npcMem m) = .next t := by
  simp only [State.store] at h
  split at h
  · rename_i v hv; cases h; exact .inl ⟨v, hv, rfl⟩
  · exact .inr (State.conclude_error_next h)

theorem State.operate_next {s t : State} {rd : Reg} {ea : Ea} {act : State → Word → Word → State}
    (h : s.operate rd ea act = .next t) :
    rd ≠ .flag ∧ ((∃ b, s.value ea = .ok b ∧ t = (act s (s.readReg rd) b).goto (s.npcEa ea)) ∨
      ∃ x, s.raise x (s.npcEa ea) = .next t) := by
  simp only [State.operate] at h
  split at h
  · cases h
  rename_i hrd
  refine ⟨hrd, ?_⟩
  split at h
  · rename_i b hb; cases h; exact .inl ⟨b, hb, rfl⟩
  · exact .inr (State.conclude_error_next h)

theorem State.operate_value {s : State} {rd : Reg} {ea : Ea} {b : Word} (act : State → Word → Word → State)
    (hrd : rd ≠ .flag) (hb : s.value ea = .ok b) :
    s.operate rd ea act = .next ((act s (s.readReg rd) b).goto (s.npcEa ea)) := by
  simp [State.operate, hrd, hb]

theorem State.divide_next {s t : State} {rd : Reg} {ea : Ea} {f : Word → Word → Word} (h : s.divide rd ea f = .next t) :
    rd ≠ .flag ∧ ((∃ b, s.value ea = .ok b ∧ b ≠ 0 ∧ t = (s.resultDrawn rd (f (s.readReg rd) b)).goto (s.npcEa ea)) ∨
      s.drawVCSZ.raise .zeroDivide (s.npcEa ea) = .next t ∨ ∃ x, s.raise x (s.npcEa ea) = .next t) := by
  simp only [State.divide] at h
  split at h
  · cases h
  rename_i hrd
  refine ⟨hrd, ?_⟩
  split at h
  · rename_i b hb
    split at h
    · exact .inr (.inl h)
    · rename_i hz; cases h; exact .inl ⟨b, hb, hz, rfl⟩
  · exact .inr (.inr (State.conclude_error_next h))

theorem State.call_next {s t : State} {m : MemEa} (h : s.call m = .next t) :
    (∃ u, s.push (s.npcMem m) = .ok u ∧ t = u.goto (s.addr m)) ∨ ∃ x, s.raise x (s.npcMem m) = .next t := by
  simp only [State.call] at h
  split at h
  · rename_i u hu; cases h; exact .inl ⟨u, hu, rfl⟩
  · exact .inr (State.conclude_error_next h)

theorem execPush_next {s t : State} {rd : Reg} (h : execPush rd s = .next t) :
    s.namesSp rd = false ∧ ((∃ u, s.push (s.readReg rd) = .ok u ∧ t = u.goto s.npcOne) ∨
      ∃ x, s.raise x s.npcOne = .next t) := by
  simp only [execPush] at h
  split at h
  · cases h
  rename_i hn
  refine ⟨by simpa using hn, ?_⟩
  split at h
  · rename_i u hu; cases h; exact .inl ⟨u, hu, rfl⟩
  · exact .inr (State.conclude_error_next h)

theorem execPop_next {s t : State} {rd : Reg} (h : execPop rd s = .next t) :
    s.namesSp rd = false ∧ ((∃ v u, s.pop = .ok (v, u) ∧ t = (u.writeReg rd v).goto s.npcOne) ∨
      ∃ x, s.raise x s.npcOne = .next t) := by
  simp only [execPop] at h
  split at h
  · cases h
  rename_i hn
  refine ⟨by simpa using hn, ?_⟩
  split at h
  · rename_i v u hu; cases h; exact .inl ⟨v, u, hu, rfl⟩
  · exact .inr (State.conclude_error_next h)

theorem execRet_next {s t : State} (h : execRet s = .next t) :
    (∃ v u, s.pop = .ok (v, u) ∧ t = u.goto v) ∨ ∃ x, s.raise x s.npcOne = .next t := by
  simp only [execRet] at h
  split at h
  · rename_i v u hu; cases h; exact .inl ⟨v, u, hu, rfl⟩
  · exact .inr (State.conclude_error_next h)

theorem execReti_next {s t : State} (h : execReti s = .next t) :
    s.trapReturn = .ok t ∨ ∃ x, s.raise x s.npcOne = .next t := by
  simp only [execReti] at h
  split at h
  · rename_i u hu; cases h; exact .inl hu
  · exact .inr (State.conclude_error_next h)

theorem execHalt_next {s t : State} (h : execHalt s = .next t) :
    (s.flag.p = true ∧ t = ({ s with halted := true } : State).goto s.npcOne) ∨
      s.raise .privViolation s.npcOne = .next t := by
  simp only [execHalt] at h
  split at h
  · rename_i hp; cases h; exact .inl ⟨hp, rfl⟩
  · exact .inr h

/-! ### The I/O space -/

theorem ioAddressStop_none {b : Bool} {a : Word} (h : ioAddressStop b a = none) :
    a.toNat ≤ 0xFF ∧ (b = false → a.toNat % 2 = 0) := by
  simp only [ioAddressStop] at h
  split at h
  · cases h
  split at h
  · cases h
  rename_i h1 h2
  refine ⟨by omega, fun hb => ?_⟩
  simp [hb] at h2
  omega

/-- A device register lies in the I/O space. -/
theorem portByte_device_lt {a : Nat} {r : Byte} {w : Bool} (h : portByte a = .device r w) : a < 256 := by
  by_contra hc
  have h1 : portByte a = consoleByte a := by
    unfold portByte
    rw [if_neg (by simp; omega), if_neg (by omega), if_neg (by omega), if_neg (by omega), if_neg (by omega),
      if_neg (by omega)]
  rw [h1] at h
  unfold consoleByte at h
  split at h <;> first | omega | cases h

/-- What a byte written to a port can do to the machine. -/
theorem State.portWrite_ok {s t : State} {a : Nat} {v : Byte} (h : s.portWrite a v = .ok t) :
    t = s ∨ (a < 256 ∧ t = s.setIoReg a v) ∨ (∃ n x, t = s.setTlb n x) ∨ t = s.clearTlb ∨
      t = { s with iplAttached := false } ∨ t = { s with relocation := false, paging := false } ∨
      (∃ x, t = { s with base := x }) ∨ (∃ x, t = { s with limit := x }) := by
  simp only [State.portWrite] at h
  split at h
  · cases h; simp
  · cases h; simp
  · rename_i hd; cases h; exact .inr (.inl ⟨portByte_device_lt hd, rfl⟩)
  · cases h; simp
  · cases h; exact .inr (.inr (.inl ⟨_, _, rfl⟩))
  · cases h; exact .inr (.inr (.inl ⟨_, _, rfl⟩))
  · cases h; exact .inr (.inr (.inl ⟨_, _, rfl⟩))
  · split at h
    · cases h; simp
    · split at h
      · cases h; simp
      · cases h
  · split at h
    · cases h
    · cases h; simp
  · cases h; exact .inr (.inr (.inr (.inr (.inr (.inr (.inl ⟨_, rfl⟩))))))
  · cases h; exact .inr (.inr (.inr (.inr (.inr (.inr (.inl ⟨_, rfl⟩))))))
  · cases h; exact .inr (.inr (.inr (.inr (.inr (.inr (.inr ⟨_, rfl⟩))))))
  · cases h; exact .inr (.inr (.inr (.inr (.inr (.inr (.inr ⟨_, rfl⟩))))))
  · cases h; simp

/-- An OUT is one or two bytes written to ports and an event recorded. -/
theorem State.ioWrite_ok {s t : State} {b : Bool} {a v : Word} (h : s.ioWrite b a v = .ok t) :
    (∃ u e, s.portWrite a.toNat (lowByte v) = .ok u ∧ t = u.record e) ∨
      ∃ u w e, s.portWrite a.toNat (highByte v) = .ok u ∧ u.portWrite (a.toNat + 1) (lowByte v) = .ok w ∧
        t = w.record e := by
  simp only [State.ioWrite] at h
  split at h
  · split at h
    · rename_i u hu; cases h; exact .inl ⟨u, _, hu, rfl⟩
    · cases h
  · split at h
    · cases h
    rename_i u hu
    split at h
    · rename_i w hw; cases h; exact .inr ⟨u, w, _, hu, hw, rfl⟩
    · cases h

/-- What a read of a port leaves behind. -/
theorem State.portNote_eq (s : State) (a : Nat) (v : Byte) :
    ∃ c p, s.portNote a v = { s with mmuCause := c, faultPage := p } := by
  simp only [State.portNote]
  split <;> exact ⟨_, _, rfl⟩

/-- What an IN leaves besides Rd and pc: one more draw, one more event, and the two registers that present something. -/
theorem State.ioReadDone_eq (s : State) (b : Bool) (a v : Word) :
    ∃ c p, s.ioReadDone b a v = { s with
      mmuCause := c, faultPage := p, draws := s.draws + 1
      trace := { direction := .input, port := a, bytes := if b then 1 else 2, value := v } :: s.trace } := by
  simp only [State.ioReadDone]
  cases b
  · obtain ⟨c, p, h⟩ := State.portNote_eq ({ s with draws := s.draws + 1 }) a.toNat (highByte v)
    obtain ⟨c', p', h'⟩ := State.portNote_eq ({ s with mmuCause := c, faultPage := p, draws := s.draws + 1 })
      (a.toNat + 1) (lowByte v)
    refine ⟨c', p', ?_⟩
    simp only [h, h', Bool.false_eq_true, if_false]
    rfl
  · obtain ⟨c, p, h⟩ := State.portNote_eq ({ s with draws := s.draws + 1 }) a.toNat (lowByte v)
    refine ⟨c, p, ?_⟩
    simp only [h, if_true]
    rfl

theorem State.input_next {s t : State} {rd : Reg} {m : MemEa} (h : s.input rd m = .next t) :
    (s.ioAllowed = true ∧ (s.addr m).toNat ≤ 0xFF ∧ ∃ v, v = s.ioValue (isByteForm m) (s.addr m) ∧
      t = ((s.ioReadDone (isByteForm m) (s.addr m) v).writeReg rd v).goto (s.npcMem m)) ∨
    ∃ x, s.raise x (s.npcMem m) = .next t := by
  simp only [State.input] at h
  split at h
  · exact .inr ⟨_, h⟩
  rename_i ha
  split at h
  · exact .inr (State.conclude_error_next h)
  · rename_i hn
    cases h
    exact .inl ⟨by simpa using ha, (ioAddressStop_none hn).1, _, rfl, rfl⟩

theorem State.output_next {s t : State} {rd : Reg} {m : MemEa} (h : s.output rd m = .next t) :
    (s.ioAllowed = true ∧ ∃ u, s.ioWrite (isByteForm m) (s.addr m) (s.readReg rd) = .ok u ∧ t = u.goto (s.npcMem m)) ∨
    ∃ x, s.raise x (s.npcMem m) = .next t := by
  simp only [State.output] at h
  split at h
  · exact .inr ⟨_, h⟩
  rename_i ha
  split at h
  · exact .inr (State.conclude_error_next h)
  · split at h
    · rename_i u hu; cases h; exact .inl ⟨by simpa using ha, u, hu, rfl⟩
    · exact .inr (State.conclude_error_next h)

/-! ### The step -/

/-- What the arrivals at a step boundary change. -/
theorem State.arrive_eq (s : State) (n : Nat) :
    ∃ p k, s.arrive n = { s with pending := p, draws := k } ∧ (s.irqEnabled n = false → p = s.pending ∧ k = s.draws) := by
  simp only [State.arrive]
  split
  · rename_i h; exact ⟨_, _, rfl, fun hf => by simp [h] at hf⟩
  · exact ⟨_, _, rfl, fun _ => ⟨rfl, rfl⟩⟩

theorem State.atBoundary_eq (s : State) : ∃ p k, s.atBoundary = { s with pending := p, draws := k } := by
  have h : ∀ (l : List Nat) (s : State), ∃ p k, l.foldl State.arrive s = { s with pending := p, draws := k } := by
    intro l
    induction l with
    | nil => intro s; exact ⟨_, _, rfl⟩
    | cons n l ih =>
      intro s
      obtain ⟨p, k, h, -⟩ := s.arrive_eq n
      obtain ⟨p', k', h'⟩ := ih { s with pending := p, draws := k }
      exact ⟨p', k', by simp only [List.foldl_cons, h, h']⟩
  exact h _ s

/-- With no source enabled nothing arrives. -/
theorem State.atBoundary_of_disabled (s : State) (h : ∀ n, s.irqEnabled n = false) : s.atBoundary = s := by
  have ha : ∀ n, s.arrive n = s := fun n => by simp [State.arrive, h]
  simp only [State.atBoundary]
  generalize List.range sources = l
  induction l with
  | nil => rfl
  | cons n l ih => rw [List.foldl_cons, ha]; exact ih

theorem State.chooseInterrupt_some {s t : State} {n : Nat} (h : s.chooseInterrupt = (some n, t)) :
    s.flag.e = true ∧ (∃ w, n = s.pickInterrupt w) ∧ t = { s with draws := s.draws + 2 } := by
  simp only [State.chooseInterrupt] at h
  split at h
  · rename_i he
    split at h
    · cases h
      simp at he
      exact ⟨he.1, ⟨_, rfl⟩, rfl⟩
    · cases h
  · cases h

theorem State.chooseInterrupt_none {s t : State} (h : s.chooseInterrupt = (none, t)) :
    ∃ k, t = { s with draws := k } := by
  simp only [State.chooseInterrupt] at h
  split at h
  · split at h
    · cases h
    · cases h; exact ⟨_, rfl⟩
  · cases h; exact ⟨_, rfl⟩

/-- With E = 0 or nothing requesting, no interrupt is taken and nothing is drawn. -/
theorem State.chooseInterrupt_quiet {s : State} (h : s.flag.e = false ∨ s.pending = 0) :
    s.chooseInterrupt = (none, s) := by
  simp only [State.chooseInterrupt]
  rcases h with h | h <;> simp [h]

/-- At a quiet boundary the step runs the instruction at pc. -/
theorem step_quiet {s : State} (h : s.quiet) : step s = s.runInstruction := by
  obtain ⟨h1, h2, h3⟩ := h
  simp [step, h1, State.atBoundary_of_disabled s h2, State.chooseInterrupt_quiet h3]

/-- The three cases of a step: halted, an interrupt taken, or the instruction at pc. -/
theorem step_next {s t : State} (h : step s = .next t) :
    (s.halted = true ∧ t = s) ∨ ∃ p k, (∃ n, ({ s with pending := p, draws := k } : State).trapFrame n s.pc = .ok t) ∨
      ({ s with pending := p, draws := k } : State).runInstruction = .next t := by
  simp only [step] at h
  split at h
  · rename_i hh; cases h; exact .inl ⟨hh, rfl⟩
  right
  obtain ⟨p, k, hb⟩ := s.atBoundary_eq
  rw [hb] at h
  split at h
  · rename_i n u hc
    obtain ⟨-, -, rfl⟩ := State.chooseInterrupt_some hc
    exact ⟨_, _, .inl ⟨n, State.trapEntry_next h⟩⟩
  · rename_i u hc
    obtain ⟨k', rfl⟩ := State.chooseInterrupt_none hc
    exact ⟨p, k', .inr h⟩

theorem State.runInstruction_next {s t : State} (h : s.runInstruction = .next t) :
    (∃ i, s.fetch = .ok (.instr i) ∧ exec i s = .next t) ∨ (∃ x, s.raise x s.npcOne = .next t) ∨
      (∃ k m, s.jump k m = .next t) ∨ ∃ m, s.call m = .next t := by
  simp only [State.runInstruction] at h
  split at h
  · exact .inr (.inl (State.conclude_error_next h))
  · rename_i i hi; exact .inl ⟨i, hi, h⟩
  · exact .inr (.inl ⟨_, h⟩)
  · cases h
  · simp only [State.openByte] at h
    split at h
    · cases h
    · exact .inr (.inl ⟨_, h⟩)
    · split at h
      · split at h
        · exact .inr (.inr (.inl ⟨_, _, h⟩))
        · cases h
      · split at h
        · exact .inr (.inr (.inr ⟨_, h⟩))
        · cases h

end Sys2Proof.Machine
end

