-- ==== Sys2Proof/Laws/Exec.lean ====
section
/-! SUPPORT. Every row's meaning as one of the shared shapes, and what the shapes leave unchanged: the frame of a
register write, of a flag update, of a store, of a trap. -/

namespace Sys2Proof.Machine

/-! ### Rows as shapes -/

/-- What an operation of the eight-mode instructions does with Rd's old value and the operand. -/
def EaOp.act (rd : Reg) : EaOp → State → Word → Word → State
  | .ld => fun s _ b => s.writeReg rd b
  | .add => State.addAct rd
  | .sub => State.subAct rd
  | .cmp => State.cmpAct
  | .and => fun s a b => s.resultDrawn rd (a &&& b)
  | .or => fun s a b => s.resultDrawn rd (a ||| b)
  | .xor => fun s a b => s.resultDrawn rd (a ^^^ b)
  | .adds => fun s a b => s.resultDrawn rd (addScaled a b)
  | .mul => fun s a b => s.resultDrawn rd (product a b)
  | .div => fun s a b => s.resultDrawn rd (quotient a b)
  | .mod => fun s a b => s.resultDrawn rd (remainder a b)
  | .shla => State.shiftAct rd shiftLeft
  | .shll => State.shiftAct rd shiftLeft
  | .shra => State.shiftAct rd shiftRightArith
  | .shrl => State.shiftAct rd shiftRightLogic

theorem exec_ld (rd : Reg) (ea : Ea) (s : State) : exec (Instr.ofEa .ld rd ea) s = s.load rd ea := by
  rcases ea with m | _ | _ | _
  · cases m <;> rfl
  all_goals rfl

theorem exec_div (rd : Reg) (ea : Ea) (s : State) : exec (Instr.ofEa .div rd ea) s = s.divide rd ea quotient := by
  rcases ea with m | _ | _ | _
  · cases m <;> rfl
  all_goals rfl

theorem exec_mod (rd : Reg) (ea : Ea) (s : State) : exec (Instr.ofEa .mod rd ea) s = s.divide rd ea remainder := by
  rcases ea with m | _ | _ | _
  · cases m <;> rfl
  all_goals rfl

/-- The eight-mode instructions but LD, DIV and MOD. -/
theorem exec_operate (op : EaOp) (rd : Reg) (ea : Ea) (s : State) (h : op ≠ .ld ∧ op ≠ .div ∧ op ≠ .mod) :
    exec (Instr.ofEa op rd ea) s = s.operate rd ea (EaOp.act rd op) := by
  cases op <;> simp only [ne_eq, reduceCtorEq, not_true_eq_false, not_false_eq_true, false_and, and_false] at h <;>
    (rcases ea with m | _ | _ | _
     · cases m <;> rfl
     all_goals rfl)

/-- Where the operand has a value, an eight-mode instruction completes, but for a division by zero. -/
theorem exec_ea_value (op : EaOp) (rd : Reg) (ea : Ea) (s : State) (b : Word) (hrd : op = .ld ∨ rd ≠ .flag)
    (hb : s.value ea = .ok b) (hz : op = .div ∨ op = .mod → b ≠ 0) :
    exec (Instr.ofEa op rd ea) s = .next ((EaOp.act rd op s (s.readReg rd) b).goto (s.npcEa ea)) := by
  by_cases h1 : op = .ld
  · subst h1; rw [exec_ld, State.load, hb]; rfl
  replace hrd : rd ≠ .flag := by simpa [h1] using hrd
  by_cases h2 : op = .div
  · subst h2; rw [exec_div, State.divide, if_neg hrd, hb]; simp only [if_neg (hz (.inl rfl))]; rfl
  by_cases h3 : op = .mod
  · subst h3; rw [exec_mod, State.divide, if_neg hrd, hb]; simp only [if_neg (hz (.inr rfl))]; rfl
  rw [exec_operate op rd ea s ⟨h1, h2, h3⟩, State.operate_value _ hrd hb]

/-- Where the operand's access stops, so does the instruction. -/
theorem exec_ea_stop (op : EaOp) (rd : Reg) (ea : Ea) (s : State) (e : Stop) (hrd : op = .ld ∨ rd ≠ .flag)
    (hb : s.value ea = .error e) : exec (Instr.ofEa op rd ea) s = s.conclude (s.npcEa ea) (.error e) := by
  by_cases h1 : op = .ld
  · subst h1; rw [exec_ld, State.load, hb]
  replace hrd : rd ≠ .flag := by simpa [h1] using hrd
  by_cases h2 : op = .div
  · subst h2; rw [exec_div, State.divide, if_neg hrd, hb]
  by_cases h3 : op = .mod
  · subst h3; rw [exec_mod, State.divide, if_neg hrd, hb]
  rw [exec_operate op rd ea s ⟨h1, h2, h3⟩, State.operate, if_neg hrd, hb]

theorem exec_st (rd : Reg) (m : MemEa) (s : State) : exec (Instr.ofSt rd m) s = s.store rd m := by
  cases m <;> rfl

theorem exec_jumpDrct (k : Cond) (dsp : Word) (s : State) :
    exec (Instr.ofJumpDrct k dsp) s = s.jump k (.drct dsp) := by cases k <;> rfl

theorem exec_jumpIndex (k : Cond) (rx : Reg) (dsp : Word) (s : State) :
    exec (Instr.ofJumpIndex k rx dsp) s = s.jump k (.index dsp rx) := by cases k <;> rfl

theorem exec_call {m : MemEa} {i : Instr} (s : State) (h : callRow m = some i) : exec i s = s.call m := by
  cases m <;> simp only [callRow, reduceCtorEq, Option.some.injEq] at h <;> subst h <;> rfl

theorem exec_in {rd : Reg} {m : MemEa} {i : Instr} (s : State) (h : inRow rd m = some i) : exec i s = s.input rd m := by
  cases m <;> simp only [inRow, reduceCtorEq, Option.some.injEq] at h <;> subst h <;> rfl

theorem exec_out {rd : Reg} {m : MemEa} {i : Instr} (s : State) (h : outRow rd m = some i) :
    exec i s = s.output rd m := by
  cases m <;> simp only [outRow, reduceCtorEq, Option.some.injEq] at h <;> subst h <;> rfl

/-! ### Every instruction is of one of the shapes -/

/-- A property of every row of each shape is one of every instruction. -/
theorem Instr.byShape {P : Instr → Prop} (hno : P .no) (hea : ∀ op rd ea, P (Instr.ofEa op rd ea))
    (hst : ∀ rd m, P (Instr.ofSt rd m)) (hjd : ∀ k dsp, P (Instr.ofJumpDrct k dsp))
    (hji : ∀ k rx dsp, P (Instr.ofJumpIndex k rx dsp)) (hcall : ∀ m i, callRow m = some i → P i)
    (hin : ∀ rd m i, inRow rd m = some i → P i) (hout : ∀ rd m i, outRow rd m = some i → P i)
    (hpush : ∀ rd, P (.push rd)) (hpop : ∀ rd, P (.pop rd)) (hret : P .ret) (hreti : P .reti) (hsvc : P .svc)
    (hhalt : P .halt) (i : Instr) : P i := by
  cases i with
  | no => exact hno
  | ldDrct rd dsp => exact hea .ld rd (.mem (.drct dsp))
  | ldIndex rd rx dsp => exact hea .ld rd (.mem (.index dsp rx))
  | ldImm rd imm => exact hea .ld rd (.imm imm)
  | ldFpRlt rd dsp4 => exact hea .ld rd (.mem (.fpRlt dsp4))
  | ldReg rd rs => exact hea .ld rd (.reg rs)
  | ldImm4 rd imm4 => exact hea .ld rd (.imm4 imm4)
  | ldIndr rd rx => exact hea .ld rd (.mem (.indr rx))
  | ldBIndr rd rx => exact hea .ld rd (.mem (.bIndr rx))
  | stDrct rd dsp => exact hst rd (.drct dsp)
  | stIndex rd rx dsp => exact hst rd (.index dsp rx)
  | stFpRlt rd dsp4 => exact hst rd (.fpRlt dsp4)
  | stIndr rd rx => exact hst rd (.indr rx)
  | stBIndr rd rx => exact hst rd (.bIndr rx)
  | addDrct rd dsp => exact hea .add rd (.mem (.drct dsp))
  | addIndex rd rx dsp => exact hea .add rd (.mem (.index dsp rx))
  | addImm rd imm => exact hea .add rd (.imm imm)
  | addFpRlt rd dsp4 => exact hea .add rd (.mem (.fpRlt dsp4))
  | addReg rd rs => exact hea .add rd (.reg rs)
  | addImm4 rd imm4 => exact hea .add rd (.imm4 imm4)
  | addIndr rd rx => exact hea .add rd (.mem (.indr rx))
  | addBIndr rd rx => exact hea .add rd (.mem (.bIndr rx))
  | subDrct rd dsp => exact hea .sub rd (.mem (.drct dsp))
  | subIndex rd rx dsp => exact hea .sub rd (.mem (.index dsp rx))
  | subImm rd imm => exact hea .sub rd (.imm imm)
  | subFpRlt rd dsp4 => exact hea .sub rd (.mem (.fpRlt dsp4))
  | subReg rd rs => exact hea .sub rd (.reg rs)
  | subImm4 rd imm4 => exact hea .sub rd (.imm4 imm4)
  | subIndr rd rx => exact hea .sub rd (.mem (.indr rx))
  | subBIndr rd rx => exact hea .sub rd (.mem (.bIndr rx))
  | cmpDrct rd dsp => exact hea .cmp rd (.mem (.drct dsp))
  | cmpIndex rd rx dsp => exact hea .cmp rd (.mem (.index dsp rx))
  | cmpImm rd imm => exact hea .cmp rd (.imm imm)
  | cmpFpRlt rd dsp4 => exact hea .cmp rd (.mem (.fpRlt dsp4))
  | cmpReg rd rs => exact hea .cmp rd (.reg rs)
  | cmpImm4 rd imm4 => exact hea .cmp rd (.imm4 imm4)
  | cmpIndr rd rx => exact hea .cmp rd (.mem (.indr rx))
  | cmpBIndr rd rx => exact hea .cmp rd (.mem (.bIndr rx))
  | andDrct rd dsp => exact hea .and rd (.mem (.drct dsp))
  | andIndex rd rx dsp => exact hea .and rd (.mem (.index dsp rx))
  | andImm rd imm => exact hea .and rd (.imm imm)
  | andFpRlt rd dsp4 => exact hea .and rd (.mem (.fpRlt dsp4))
  | andReg rd rs => exact hea .and rd (.reg rs)
  | andImm4 rd imm4 => exact hea .and rd (.imm4 imm4)
  | andIndr rd rx => exact hea .and rd (.mem (.indr rx))
  | andBIndr rd rx => exact hea .and rd (.mem (.bIndr rx))
  | orDrct rd dsp => exact hea .or rd (.mem (.drct dsp))
  | orIndex rd rx dsp => exact hea .or rd (.mem (.index dsp rx))
  | orImm rd imm => exact hea .or rd (.imm imm)
  | orFpRlt rd dsp4 => exact hea .or rd (.mem (.fpRlt dsp4))
  | orReg rd rs => exact hea .or rd (.reg rs)
  | orImm4 rd imm4 => exact hea .or rd (.imm4 imm4)
  | orIndr rd rx => exact hea .or rd (.mem (.indr rx))
  | orBIndr rd rx => exact hea .or rd (.mem (.bIndr rx))
  | xorDrct rd dsp => exact hea .xor rd (.mem (.drct dsp))
  | xorIndex rd rx dsp => exact hea .xor rd (.mem (.index dsp rx))
  | xorImm rd imm => exact hea .xor rd (.imm imm)
  | xorFpRlt rd dsp4 => exact hea .xor rd (.mem (.fpRlt dsp4))
  | xorReg rd rs => exact hea .xor rd (.reg rs)
  | xorImm4 rd imm4 => exact hea .xor rd (.imm4 imm4)
  | xorIndr rd rx => exact hea .xor rd (.mem (.indr rx))
  | xorBIndr rd rx => exact hea .xor rd (.mem (.bIndr rx))
  | addsDrct rd dsp => exact hea .adds rd (.mem (.drct dsp))
  | addsIndex rd rx dsp => exact hea .adds rd (.mem (.index dsp rx))
  | addsImm rd imm => exact hea .adds rd (.imm imm)
  | addsFpRlt rd dsp4 => exact hea .adds rd (.mem (.fpRlt dsp4))
  | addsReg rd rs => exact hea .adds rd (.reg rs)
  | addsImm4 rd imm4 => exact hea .adds rd (.imm4 imm4)
  | addsIndr rd rx => exact hea .adds rd (.mem (.indr rx))
  | addsBIndr rd rx => exact hea .adds rd (.mem (.bIndr rx))
  | mulDrct rd dsp => exact hea .mul rd (.mem (.drct dsp))
  | mulIndex rd rx dsp => exact hea .mul rd (.mem (.index dsp rx))
  | mulImm rd imm => exact hea .mul rd (.imm imm)
  | mulFpRlt rd dsp4 => exact hea .mul rd (.mem (.fpRlt dsp4))
  | mulReg rd rs => exact hea .mul rd (.reg rs)
  | mulImm4 rd imm4 => exact hea .mul rd (.imm4 imm4)
  | mulIndr rd rx => exact hea .mul rd (.mem (.indr rx))
  | mulBIndr rd rx => exact hea .mul rd (.mem (.bIndr rx))
  | divDrct rd dsp => exact hea .div rd (.mem (.drct dsp))
  | divIndex rd rx dsp => exact hea .div rd (.mem (.index dsp rx))
  | divImm rd imm => exact hea .div rd (.imm imm)
  | divFpRlt rd dsp4 => exact hea .div rd (.mem (.fpRlt dsp4))
  | divReg rd rs => exact hea .div rd (.reg rs)
  | divImm4 rd imm4 => exact hea .div rd (.imm4 imm4)
  | divIndr rd rx => exact hea .div rd (.mem (.indr rx))
  | divBIndr rd rx => exact hea .div rd (.mem (.bIndr rx))
  | modDrct rd dsp => exact hea .mod rd (.mem (.drct dsp))
  | modIndex rd rx dsp => exact hea .mod rd (.mem (.index dsp rx))
  | modImm rd imm => exact hea .mod rd (.imm imm)
  | modFpRlt rd dsp4 => exact hea .mod rd (.mem (.fpRlt dsp4))
  | modReg rd rs => exact hea .mod rd (.reg rs)
  | modImm4 rd imm4 => exact hea .mod rd (.imm4 imm4)
  | modIndr rd rx => exact hea .mod rd (.mem (.indr rx))
  | modBIndr rd rx => exact hea .mod rd (.mem (.bIndr rx))
  | shlaDrct rd dsp => exact hea .shla rd (.mem (.drct dsp))
  | shlaIndex rd rx dsp => exact hea .shla rd (.mem (.index dsp rx))
  | shlaImm rd imm => exact hea .shla rd (.imm imm)
  | shlaFpRlt rd dsp4 => exact hea .shla rd (.mem (.fpRlt dsp4))
  | shlaReg rd rs => exact hea .shla rd (.reg rs)
  | shlaImm4 rd imm4 => exact hea .shla rd (.imm4 imm4)
  | shlaIndr rd rx => exact hea .shla rd (.mem (.indr rx))
  | shlaBIndr rd rx => exact hea .shla rd (.mem (.bIndr rx))
  | shllDrct rd dsp => exact hea .shll rd (.mem (.drct dsp))
  | shllIndex rd rx dsp => exact hea .shll rd (.mem (.index dsp rx))
  | shllImm rd imm => exact hea .shll rd (.imm imm)
  | shllFpRlt rd dsp4 => exact hea .shll rd (.mem (.fpRlt dsp4))
  | shllReg rd rs => exact hea .shll rd (.reg rs)
  | shllImm4 rd imm4 => exact hea .shll rd (.imm4 imm4)
  | shllIndr rd rx => exact hea .shll rd (.mem (.indr rx))
  | shllBIndr rd rx => exact hea .shll rd (.mem (.bIndr rx))
  | shraDrct rd dsp => exact hea .shra rd (.mem (.drct dsp))
  | shraIndex rd rx dsp => exact hea .shra rd (.mem (.index dsp rx))
  | shraImm rd imm => exact hea .shra rd (.imm imm)
  | shraFpRlt rd dsp4 => exact hea .shra rd (.mem (.fpRlt dsp4))
  | shraReg rd rs => exact hea .shra rd (.reg rs)
  | shraImm4 rd imm4 => exact hea .shra rd (.imm4 imm4)
  | shraIndr rd rx => exact hea .shra rd (.mem (.indr rx))
  | shraBIndr rd rx => exact hea .shra rd (.mem (.bIndr rx))
  | shrlDrct rd dsp => exact hea .shrl rd (.mem (.drct dsp))
  | shrlIndex rd rx dsp => exact hea .shrl rd (.mem (.index dsp rx))
  | shrlImm rd imm => exact hea .shrl rd (.imm imm)
  | shrlFpRlt rd dsp4 => exact hea .shrl rd (.mem (.fpRlt dsp4))
  | shrlReg rd rs => exact hea .shrl rd (.reg rs)
  | shrlImm4 rd imm4 => exact hea .shrl rd (.imm4 imm4)
  | shrlIndr rd rx => exact hea .shrl rd (.mem (.indr rx))
  | shrlBIndr rd rx => exact hea .shrl rd (.mem (.bIndr rx))
  | jzDrct dsp => exact hjd .z dsp
  | jzIndex rx dsp => exact hji .z rx dsp
  | jcDrct dsp => exact hjd .c dsp
  | jcIndex rx dsp => exact hji .c rx dsp
  | jmDrct dsp => exact hjd .m dsp
  | jmIndex rx dsp => exact hji .m rx dsp
  | joDrct dsp => exact hjd .o dsp
  | joIndex rx dsp => exact hji .o rx dsp
  | jgtDrct dsp => exact hjd .gt dsp
  | jgtIndex rx dsp => exact hji .gt rx dsp
  | jgeDrct dsp => exact hjd .ge dsp
  | jgeIndex rx dsp => exact hji .ge rx dsp
  | jleDrct dsp => exact hjd .le dsp
  | jleIndex rx dsp => exact hji .le rx dsp
  | jltDrct dsp => exact hjd .lt dsp
  | jltIndex rx dsp => exact hji .lt rx dsp
  | jnzDrct dsp => exact hjd .nz dsp
  | jnzIndex rx dsp => exact hji .nz rx dsp
  | jncDrct dsp => exact hjd .nc dsp
  | jncIndex rx dsp => exact hji .nc rx dsp
  | jnmDrct dsp => exact hjd .nm dsp
  | jnmIndex rx dsp => exact hji .nm rx dsp
  | jnoDrct dsp => exact hjd .no dsp
  | jnoIndex rx dsp => exact hji .no rx dsp
  | jhiDrct dsp => exact hjd .hi dsp
  | jhiIndex rx dsp => exact hji .hi rx dsp
  | jlsDrct dsp => exact hjd .ls dsp
  | jlsIndex rx dsp => exact hji .ls rx dsp
  | jmpDrct dsp => exact hjd .always dsp
  | jmpIndex rx dsp => exact hji .always rx dsp
  | callDrct dsp => exact hcall (.drct dsp) _ rfl
  | callIndex rx dsp => exact hcall (.index dsp rx) _ rfl
  | inDrct rd dsp => exact hin rd (.drct dsp) _ rfl
  | inIndr rd rx => exact hin rd (.indr rx) _ rfl
  | inBIndr rd rx => exact hin rd (.bIndr rx) _ rfl
  | outDrct rd dsp => exact hout rd (.drct dsp) _ rfl
  | outIndr rd rx => exact hout rd (.indr rx) _ rfl
  | outBIndr rd rx => exact hout rd (.bIndr rx) _ rfl
  | push rd => exact hpush rd
  | pop rd => exact hpop rd
  | ret => exact hret
  | reti => exact hreti
  | svc => exact hsvc
  | halt => exact hhalt

/-! ### The frame of a register write -/

/-- A register write keeps every other register. -/
theorem RegistersKeptBut.writeReg (s : State) (r : Reg) (v : Word) :
    RegistersKeptBut (homeOf r s.flag.p) s (s.writeReg r v) :=
  fun _ hg _ => State.peek_poke_ne s _ _ v hg

/-- The register written holds the value written. -/
theorem State.peek_writeReg (s : State) (r : Reg) (v : Word) (h : r ≠ .flag) :
    (s.writeReg r v).peek (homeOf r s.flag.p) = v := State.peek_poke_self s _ v (homeOf_ne_flag r _ h)

/-- A place is determined by the registers, the two stack pointers and FLAG. -/
theorem State.peek_congr (s t : State) (hr : t.regs = s.regs) (hs : t.ssp = s.ssp) (hu : t.usp = s.usp) (g : Home)
    (hg : g ≠ .flag) : t.peek g = s.peek g := by
  cases g <;> simp_all [State.peek]

theorem RegistersKept.of_eq {s t : State} (hr : t.regs = s.regs) (hs : t.ssp = s.ssp) (hu : t.usp = s.usp) :
    RegistersKept s t := fun g hg => State.peek_congr s t hr hs hu g hg

/-- A later update that leaves registers and stack pointers alone keeps a register frame. -/
theorem RegistersKeptBut.of_eq {h : Home} {s t u : State} (hk : RegistersKeptBut h s t) (hr : u.regs = t.regs)
    (hs : u.ssp = t.ssp) (hu : u.usp = t.usp) : RegistersKeptBut h s u :=
  fun g hg hf => (State.peek_congr t u hr hs hu g hf).trans (hk g hg hf)

/-- Two states with the same memories and attachment read the same. -/
theorem MemoryKept.of_eq {s t : State} (hm : t.mem = s.mem) (hr : t.rom = s.rom) (ha : t.iplAttached = s.iplAttached) :
    MemoryKept s t := State.byteAt_congr s t hm hr ha

/-- What `EaOp.act` leaves: every register but Rd, E, P and I, and all that is neither a register nor FLAG nor a draw. -/
structure ActFrame (rd : Reg) (s t : State) : Prop where
  registers : RegistersKeptBut (homeOf rd s.flag.p) s t
  mode : ModeKept s t
  pc : t.pc = s.pc
  mem : t.mem = s.mem
  system : SystemAndTraceKept s t

theorem ActFrame.resultDrawn (rd : Reg) (s : State) (r : Word) (hrd : rd ≠ .flag) : ActFrame rd s (s.resultDrawn rd r) where
  registers := (RegistersKeptBut.writeReg s rd r).of_eq rfl rfl rfl
  mode := by simp [State.resultDrawn, ModeKept, hrd, State.setZS, State.drawCV]
  pc := by simp [State.resultDrawn]
  mem := by simp [State.resultDrawn]
  system := by
    refine ⟨?_, by simp [State.resultDrawn]⟩
    constructor <;> simp [State.resultDrawn]

/-- The frame of every eight-mode instruction's writes, for every Rd but FLAG. -/
theorem ActFrame.of_act (op : EaOp) (rd : Reg) (s : State) (a b : Word) (hrd : rd ≠ .flag) :
    ActFrame rd s (EaOp.act rd op s a b) := by
  have hset : ∀ r : Word, ∀ c v : Bool, ActFrame rd s (((s.writeReg rd r).setZS r).setCV c v) := by
    intro r c v
    refine ⟨(RegistersKeptBut.writeReg s rd r).of_eq rfl rfl rfl, ?_, by simp, by simp, ⟨?_, by simp⟩⟩
    · simp [ModeKept, hrd, State.setZS, State.setCV]
    · constructor <;> simp
  have hshift : ∀ f : Word → Nat → Word, ActFrame rd s (State.shiftAct rd f s a b) := by
    intro f
    simp only [State.shiftAct]
    split
    · exact ActFrame.resultDrawn rd s _ hrd
    · refine ⟨(RegistersKeptBut.writeReg s rd (Config.freeWord s.draws)).of_eq rfl rfl rfl, ?_, by simp, by simp,
        ⟨?_, by simp⟩⟩
      · simp [ModeKept, hrd, State.drawVCSZ, State.drawReg]
      · constructor <;> simp
  cases op
  case ld =>
    refine ⟨RegistersKeptBut.writeReg s rd b, ?_, by simp [EaOp.act], by simp [EaOp.act], ⟨?_, by simp [EaOp.act]⟩⟩
    · simp [EaOp.act, ModeKept, hrd]
    · constructor <;> simp [EaOp.act]
  case add => exact hset _ _ _
  case sub => exact hset _ _ _
  case cmp =>
    refine ⟨fun g _ hf => (RegistersKept.of_eq rfl rfl rfl : RegistersKept s (s.cmpAct a b)) g hf, ⟨rfl, rfl, rfl⟩, rfl,
      rfl, ⟨?_, rfl⟩⟩
    constructor <;> simp [EaOp.act, State.cmpAct]
  case shla => exact hshift _
  case shll => exact hshift _
  case shra => exact hshift _
  case shrl => exact hshift _
  all_goals exact ActFrame.resultDrawn rd s _ hrd

/-- The frame survives the advance of pc, and with it memory reads as before. -/
theorem ActFrame.memoryKept {rd : Reg} {s t : State} (h : ActFrame rd s t) (pc : Word) : MemoryKept s (t.goto pc) :=
  MemoryKept.of_eq h.mem h.system.1.rom h.system.1.iplAttached

theorem ActFrame.systemKept {rd : Reg} {s t : State} (h : ActFrame rd s t) (pc : Word) :
    SystemAndTraceKept s (t.goto pc) :=
  ⟨⟨h.system.1.rom, h.system.1.iplAttached, h.system.1.halted, h.system.1.pending, h.system.1.relocation,
    h.system.1.paging, h.system.1.base, h.system.1.limit, h.system.1.mmuCause, h.system.1.faultPage, h.system.1.tlb,
    h.system.1.io, h.system.1.params⟩, h.system.2⟩

/-! ### The frame of a trap -/

@[simp] theorem State.trapped_flag (s : State) (n : Nat) (a b pc : Word) :
    (s.trapped n a b pc).flag = s.flag.enterTrap := rfl
@[simp] theorem State.trapped_regs (s : State) (n : Nat) (a b pc : Word) : (s.trapped n a b pc).regs = s.regs := rfl
@[simp] theorem State.trapped_usp (s : State) (n : Nat) (a b pc : Word) : (s.trapped n a b pc).usp = s.usp := by
  simp only [State.trapped, State.goto_usp, State.setSsp_usp, State.setFlag_usp, State.storeWord_usp]
@[simp] theorem State.trapped_ssp (s : State) (n : Nat) (a b pc : Word) : (s.trapped n a b pc).ssp = s.ssp - 4 := by
  simp only [State.trapped, State.goto_ssp, State.setSsp_ssp]

/-- The words and bytes read after trap entry are those of the memory with its frame stored. -/
theorem State.trapped_byteAt (s : State) (n : Nat) (a b pc x : Word) :
    (s.trapped n a b pc).byteAt x = ((s.storeWord a pc).storeWord b s.flag.toWord).byteAt x := rfl

theorem State.trapped_wordAt (s : State) (n : Nat) (a b pc x : Word) :
    (s.trapped n a b pc).wordAt x = ((s.storeWord a pc).storeWord b s.flag.toWord).wordAt x := rfl

/-- Trap entry keeps the memory system, the devices and the trace. -/
theorem State.trapped_system (s : State) (n : Nat) (a b pc : Word) : SystemAndTraceKept s (s.trapped n a b pc) := by
  refine ⟨?_, ?_⟩
  · constructor <;> simp [State.trapped]
  · simp [State.trapped]

end Sys2Proof.Machine
end

