-- ==== Sys2Proof/Laws/PerInstr.lean ====
section
/-! SUPPORT. Facts about every instruction, one lemma per constructor. -/

namespace Sys2Proof.Laws.EncodeLength

/-- The first word of an encoding says whether there is a second: the encoding is one word or two, and two exactly where
the first word begins a two-word instruction (30_encoding.md R91, R92). -/
def Statement (i : Instr) : Prop :=
  ((encode i).length = 1 ∨ (encode i).length = 2) ∧
    hasSecondWord ((encode i).getD 0 0) = decide ((encode i).length = 2)

/-- A one-word encoding whose decoding takes no second word. -/
theorem one {i : Instr} {w : Word} (h : encode i = [w]) (hs : hasSecondWord w = false) : Statement i := by
  simp [Statement, h, hs]

/-- A two-word encoding whose first word takes a second. -/
theorem two {i : Instr} {w v : Word} (h : encode i = [w, v]) (hs : hasSecondWord w = true) : Statement i := by
  simp [Statement, h, hs]

/-- Whether a first word takes a second, by its OP byte. -/
theorem head (b : Byte) (rd rx : BitVec 4) : hasSecondWord (word1 b rd rx) =
    match decodeFields (word1 b rd rx) (b.toNat / 8) (b.toNat % 8) rd rx 0 with
    | .instr _ => takesEa (b.toNat / 8) && decide (b.toNat % 8 < 3)
    | _ => false := by
  obtain ⟨h1, h2, -, -⟩ := fields_word1 b rd rx
  unfold hasSecondWord
  rw [decode_word1, h1, h2] <;> rfl

theorem no : Statement (.no) := one rfl (head ..)
theorem ldDrct (rd : Reg) (dsp : Word) : Statement (.ldDrct rd dsp) := two rfl (head ..)
theorem ldIndex (rd rx : Reg) (dsp : Word) : Statement (.ldIndex rd rx dsp) := two rfl (head ..)
theorem ldImm (rd : Reg) (imm : Word) : Statement (.ldImm rd imm) := two rfl (head ..)
theorem ldFpRlt (rd : Reg) (dsp4 : Int) : Statement (.ldFpRlt rd dsp4) := one rfl (head ..)
theorem ldReg (rd rs : Reg) : Statement (.ldReg rd rs) := one rfl (head ..)
theorem ldImm4 (rd : Reg) (imm4 : Int) : Statement (.ldImm4 rd imm4) := one rfl (head ..)
theorem ldIndr (rd rx : Reg) : Statement (.ldIndr rd rx) := one rfl (head ..)
theorem ldBIndr (rd rx : Reg) : Statement (.ldBIndr rd rx) := one rfl (head ..)
theorem stDrct (rd : Reg) (dsp : Word) : Statement (.stDrct rd dsp) := two rfl (head ..)
theorem stIndex (rd rx : Reg) (dsp : Word) : Statement (.stIndex rd rx dsp) := two rfl (head ..)
theorem stFpRlt (rd : Reg) (dsp4 : Int) : Statement (.stFpRlt rd dsp4) := one rfl (head ..)
theorem stIndr (rd rx : Reg) : Statement (.stIndr rd rx) := one rfl (head ..)
theorem stBIndr (rd rx : Reg) : Statement (.stBIndr rd rx) := one rfl (head ..)
theorem addDrct (rd : Reg) (dsp : Word) : Statement (.addDrct rd dsp) := two rfl (head ..)
theorem addIndex (rd rx : Reg) (dsp : Word) : Statement (.addIndex rd rx dsp) := two rfl (head ..)
theorem addImm (rd : Reg) (imm : Word) : Statement (.addImm rd imm) := two rfl (head ..)
theorem addFpRlt (rd : Reg) (dsp4 : Int) : Statement (.addFpRlt rd dsp4) := one rfl (head ..)
theorem addReg (rd rs : Reg) : Statement (.addReg rd rs) := one rfl (head ..)
theorem addImm4 (rd : Reg) (imm4 : Int) : Statement (.addImm4 rd imm4) := one rfl (head ..)
theorem addIndr (rd rx : Reg) : Statement (.addIndr rd rx) := one rfl (head ..)
theorem addBIndr (rd rx : Reg) : Statement (.addBIndr rd rx) := one rfl (head ..)
theorem subDrct (rd : Reg) (dsp : Word) : Statement (.subDrct rd dsp) := two rfl (head ..)
theorem subIndex (rd rx : Reg) (dsp : Word) : Statement (.subIndex rd rx dsp) := two rfl (head ..)
theorem subImm (rd : Reg) (imm : Word) : Statement (.subImm rd imm) := two rfl (head ..)
theorem subFpRlt (rd : Reg) (dsp4 : Int) : Statement (.subFpRlt rd dsp4) := one rfl (head ..)
theorem subReg (rd rs : Reg) : Statement (.subReg rd rs) := one rfl (head ..)
theorem subImm4 (rd : Reg) (imm4 : Int) : Statement (.subImm4 rd imm4) := one rfl (head ..)
theorem subIndr (rd rx : Reg) : Statement (.subIndr rd rx) := one rfl (head ..)
theorem subBIndr (rd rx : Reg) : Statement (.subBIndr rd rx) := one rfl (head ..)
theorem cmpDrct (rd : Reg) (dsp : Word) : Statement (.cmpDrct rd dsp) := two rfl (head ..)
theorem cmpIndex (rd rx : Reg) (dsp : Word) : Statement (.cmpIndex rd rx dsp) := two rfl (head ..)
theorem cmpImm (rd : Reg) (imm : Word) : Statement (.cmpImm rd imm) := two rfl (head ..)
theorem cmpFpRlt (rd : Reg) (dsp4 : Int) : Statement (.cmpFpRlt rd dsp4) := one rfl (head ..)
theorem cmpReg (rd rs : Reg) : Statement (.cmpReg rd rs) := one rfl (head ..)
theorem cmpImm4 (rd : Reg) (imm4 : Int) : Statement (.cmpImm4 rd imm4) := one rfl (head ..)
theorem cmpIndr (rd rx : Reg) : Statement (.cmpIndr rd rx) := one rfl (head ..)
theorem cmpBIndr (rd rx : Reg) : Statement (.cmpBIndr rd rx) := one rfl (head ..)
theorem andDrct (rd : Reg) (dsp : Word) : Statement (.andDrct rd dsp) := two rfl (head ..)
theorem andIndex (rd rx : Reg) (dsp : Word) : Statement (.andIndex rd rx dsp) := two rfl (head ..)
theorem andImm (rd : Reg) (imm : Word) : Statement (.andImm rd imm) := two rfl (head ..)
theorem andFpRlt (rd : Reg) (dsp4 : Int) : Statement (.andFpRlt rd dsp4) := one rfl (head ..)
theorem andReg (rd rs : Reg) : Statement (.andReg rd rs) := one rfl (head ..)
theorem andImm4 (rd : Reg) (imm4 : Int) : Statement (.andImm4 rd imm4) := one rfl (head ..)
theorem andIndr (rd rx : Reg) : Statement (.andIndr rd rx) := one rfl (head ..)
theorem andBIndr (rd rx : Reg) : Statement (.andBIndr rd rx) := one rfl (head ..)
theorem orDrct (rd : Reg) (dsp : Word) : Statement (.orDrct rd dsp) := two rfl (head ..)
theorem orIndex (rd rx : Reg) (dsp : Word) : Statement (.orIndex rd rx dsp) := two rfl (head ..)
theorem orImm (rd : Reg) (imm : Word) : Statement (.orImm rd imm) := two rfl (head ..)
theorem orFpRlt (rd : Reg) (dsp4 : Int) : Statement (.orFpRlt rd dsp4) := one rfl (head ..)
theorem orReg (rd rs : Reg) : Statement (.orReg rd rs) := one rfl (head ..)
theorem orImm4 (rd : Reg) (imm4 : Int) : Statement (.orImm4 rd imm4) := one rfl (head ..)
theorem orIndr (rd rx : Reg) : Statement (.orIndr rd rx) := one rfl (head ..)
theorem orBIndr (rd rx : Reg) : Statement (.orBIndr rd rx) := one rfl (head ..)
theorem xorDrct (rd : Reg) (dsp : Word) : Statement (.xorDrct rd dsp) := two rfl (head ..)
theorem xorIndex (rd rx : Reg) (dsp : Word) : Statement (.xorIndex rd rx dsp) := two rfl (head ..)
theorem xorImm (rd : Reg) (imm : Word) : Statement (.xorImm rd imm) := two rfl (head ..)
theorem xorFpRlt (rd : Reg) (dsp4 : Int) : Statement (.xorFpRlt rd dsp4) := one rfl (head ..)
theorem xorReg (rd rs : Reg) : Statement (.xorReg rd rs) := one rfl (head ..)
theorem xorImm4 (rd : Reg) (imm4 : Int) : Statement (.xorImm4 rd imm4) := one rfl (head ..)
theorem xorIndr (rd rx : Reg) : Statement (.xorIndr rd rx) := one rfl (head ..)
theorem xorBIndr (rd rx : Reg) : Statement (.xorBIndr rd rx) := one rfl (head ..)
theorem addsDrct (rd : Reg) (dsp : Word) : Statement (.addsDrct rd dsp) := two rfl (head ..)
theorem addsIndex (rd rx : Reg) (dsp : Word) : Statement (.addsIndex rd rx dsp) := two rfl (head ..)
theorem addsImm (rd : Reg) (imm : Word) : Statement (.addsImm rd imm) := two rfl (head ..)
theorem addsFpRlt (rd : Reg) (dsp4 : Int) : Statement (.addsFpRlt rd dsp4) := one rfl (head ..)
theorem addsReg (rd rs : Reg) : Statement (.addsReg rd rs) := one rfl (head ..)
theorem addsImm4 (rd : Reg) (imm4 : Int) : Statement (.addsImm4 rd imm4) := one rfl (head ..)
theorem addsIndr (rd rx : Reg) : Statement (.addsIndr rd rx) := one rfl (head ..)
theorem addsBIndr (rd rx : Reg) : Statement (.addsBIndr rd rx) := one rfl (head ..)
theorem mulDrct (rd : Reg) (dsp : Word) : Statement (.mulDrct rd dsp) := two rfl (head ..)
theorem mulIndex (rd rx : Reg) (dsp : Word) : Statement (.mulIndex rd rx dsp) := two rfl (head ..)
theorem mulImm (rd : Reg) (imm : Word) : Statement (.mulImm rd imm) := two rfl (head ..)
theorem mulFpRlt (rd : Reg) (dsp4 : Int) : Statement (.mulFpRlt rd dsp4) := one rfl (head ..)
theorem mulReg (rd rs : Reg) : Statement (.mulReg rd rs) := one rfl (head ..)
theorem mulImm4 (rd : Reg) (imm4 : Int) : Statement (.mulImm4 rd imm4) := one rfl (head ..)
theorem mulIndr (rd rx : Reg) : Statement (.mulIndr rd rx) := one rfl (head ..)
theorem mulBIndr (rd rx : Reg) : Statement (.mulBIndr rd rx) := one rfl (head ..)
theorem divDrct (rd : Reg) (dsp : Word) : Statement (.divDrct rd dsp) := two rfl (head ..)
theorem divIndex (rd rx : Reg) (dsp : Word) : Statement (.divIndex rd rx dsp) := two rfl (head ..)
theorem divImm (rd : Reg) (imm : Word) : Statement (.divImm rd imm) := two rfl (head ..)
theorem divFpRlt (rd : Reg) (dsp4 : Int) : Statement (.divFpRlt rd dsp4) := one rfl (head ..)
theorem divReg (rd rs : Reg) : Statement (.divReg rd rs) := one rfl (head ..)
theorem divImm4 (rd : Reg) (imm4 : Int) : Statement (.divImm4 rd imm4) := one rfl (head ..)
theorem divIndr (rd rx : Reg) : Statement (.divIndr rd rx) := one rfl (head ..)
theorem divBIndr (rd rx : Reg) : Statement (.divBIndr rd rx) := one rfl (head ..)
theorem modDrct (rd : Reg) (dsp : Word) : Statement (.modDrct rd dsp) := two rfl (head ..)
theorem modIndex (rd rx : Reg) (dsp : Word) : Statement (.modIndex rd rx dsp) := two rfl (head ..)
theorem modImm (rd : Reg) (imm : Word) : Statement (.modImm rd imm) := two rfl (head ..)
theorem modFpRlt (rd : Reg) (dsp4 : Int) : Statement (.modFpRlt rd dsp4) := one rfl (head ..)
theorem modReg (rd rs : Reg) : Statement (.modReg rd rs) := one rfl (head ..)
theorem modImm4 (rd : Reg) (imm4 : Int) : Statement (.modImm4 rd imm4) := one rfl (head ..)
theorem modIndr (rd rx : Reg) : Statement (.modIndr rd rx) := one rfl (head ..)
theorem modBIndr (rd rx : Reg) : Statement (.modBIndr rd rx) := one rfl (head ..)
theorem shlaDrct (rd : Reg) (dsp : Word) : Statement (.shlaDrct rd dsp) := two rfl (head ..)
theorem shlaIndex (rd rx : Reg) (dsp : Word) : Statement (.shlaIndex rd rx dsp) := two rfl (head ..)
theorem shlaImm (rd : Reg) (imm : Word) : Statement (.shlaImm rd imm) := two rfl (head ..)
theorem shlaFpRlt (rd : Reg) (dsp4 : Int) : Statement (.shlaFpRlt rd dsp4) := one rfl (head ..)
theorem shlaReg (rd rs : Reg) : Statement (.shlaReg rd rs) := one rfl (head ..)
theorem shlaImm4 (rd : Reg) (imm4 : Int) : Statement (.shlaImm4 rd imm4) := one rfl (head ..)
theorem shlaIndr (rd rx : Reg) : Statement (.shlaIndr rd rx) := one rfl (head ..)
theorem shlaBIndr (rd rx : Reg) : Statement (.shlaBIndr rd rx) := one rfl (head ..)
theorem shllDrct (rd : Reg) (dsp : Word) : Statement (.shllDrct rd dsp) := two rfl (head ..)
theorem shllIndex (rd rx : Reg) (dsp : Word) : Statement (.shllIndex rd rx dsp) := two rfl (head ..)
theorem shllImm (rd : Reg) (imm : Word) : Statement (.shllImm rd imm) := two rfl (head ..)
theorem shllFpRlt (rd : Reg) (dsp4 : Int) : Statement (.shllFpRlt rd dsp4) := one rfl (head ..)
theorem shllReg (rd rs : Reg) : Statement (.shllReg rd rs) := one rfl (head ..)
theorem shllImm4 (rd : Reg) (imm4 : Int) : Statement (.shllImm4 rd imm4) := one rfl (head ..)
theorem shllIndr (rd rx : Reg) : Statement (.shllIndr rd rx) := one rfl (head ..)
theorem shllBIndr (rd rx : Reg) : Statement (.shllBIndr rd rx) := one rfl (head ..)
theorem shraDrct (rd : Reg) (dsp : Word) : Statement (.shraDrct rd dsp) := two rfl (head ..)
theorem shraIndex (rd rx : Reg) (dsp : Word) : Statement (.shraIndex rd rx dsp) := two rfl (head ..)
theorem shraImm (rd : Reg) (imm : Word) : Statement (.shraImm rd imm) := two rfl (head ..)
theorem shraFpRlt (rd : Reg) (dsp4 : Int) : Statement (.shraFpRlt rd dsp4) := one rfl (head ..)
theorem shraReg (rd rs : Reg) : Statement (.shraReg rd rs) := one rfl (head ..)
theorem shraImm4 (rd : Reg) (imm4 : Int) : Statement (.shraImm4 rd imm4) := one rfl (head ..)
theorem shraIndr (rd rx : Reg) : Statement (.shraIndr rd rx) := one rfl (head ..)
theorem shraBIndr (rd rx : Reg) : Statement (.shraBIndr rd rx) := one rfl (head ..)
theorem shrlDrct (rd : Reg) (dsp : Word) : Statement (.shrlDrct rd dsp) := two rfl (head ..)
theorem shrlIndex (rd rx : Reg) (dsp : Word) : Statement (.shrlIndex rd rx dsp) := two rfl (head ..)
theorem shrlImm (rd : Reg) (imm : Word) : Statement (.shrlImm rd imm) := two rfl (head ..)
theorem shrlFpRlt (rd : Reg) (dsp4 : Int) : Statement (.shrlFpRlt rd dsp4) := one rfl (head ..)
theorem shrlReg (rd rs : Reg) : Statement (.shrlReg rd rs) := one rfl (head ..)
theorem shrlImm4 (rd : Reg) (imm4 : Int) : Statement (.shrlImm4 rd imm4) := one rfl (head ..)
theorem shrlIndr (rd rx : Reg) : Statement (.shrlIndr rd rx) := one rfl (head ..)
theorem shrlBIndr (rd rx : Reg) : Statement (.shrlBIndr rd rx) := one rfl (head ..)
theorem jzDrct (dsp : Word) : Statement (.jzDrct dsp) := two rfl (head ..)
theorem jzIndex (rx : Reg) (dsp : Word) : Statement (.jzIndex rx dsp) := two rfl (head ..)
theorem jcDrct (dsp : Word) : Statement (.jcDrct dsp) := two rfl (head ..)
theorem jcIndex (rx : Reg) (dsp : Word) : Statement (.jcIndex rx dsp) := two rfl (head ..)
theorem jmDrct (dsp : Word) : Statement (.jmDrct dsp) := two rfl (head ..)
theorem jmIndex (rx : Reg) (dsp : Word) : Statement (.jmIndex rx dsp) := two rfl (head ..)
theorem joDrct (dsp : Word) : Statement (.joDrct dsp) := two rfl (head ..)
theorem joIndex (rx : Reg) (dsp : Word) : Statement (.joIndex rx dsp) := two rfl (head ..)
theorem jgtDrct (dsp : Word) : Statement (.jgtDrct dsp) := two rfl (head ..)
theorem jgtIndex (rx : Reg) (dsp : Word) : Statement (.jgtIndex rx dsp) := two rfl (head ..)
theorem jgeDrct (dsp : Word) : Statement (.jgeDrct dsp) := two rfl (head ..)
theorem jgeIndex (rx : Reg) (dsp : Word) : Statement (.jgeIndex rx dsp) := two rfl (head ..)
theorem jleDrct (dsp : Word) : Statement (.jleDrct dsp) := two rfl (head ..)
theorem jleIndex (rx : Reg) (dsp : Word) : Statement (.jleIndex rx dsp) := two rfl (head ..)
theorem jltDrct (dsp : Word) : Statement (.jltDrct dsp) := two rfl (head ..)
theorem jltIndex (rx : Reg) (dsp : Word) : Statement (.jltIndex rx dsp) := two rfl (head ..)
theorem jnzDrct (dsp : Word) : Statement (.jnzDrct dsp) := two rfl (head ..)
theorem jnzIndex (rx : Reg) (dsp : Word) : Statement (.jnzIndex rx dsp) := two rfl (head ..)
theorem jncDrct (dsp : Word) : Statement (.jncDrct dsp) := two rfl (head ..)
theorem jncIndex (rx : Reg) (dsp : Word) : Statement (.jncIndex rx dsp) := two rfl (head ..)
theorem jnmDrct (dsp : Word) : Statement (.jnmDrct dsp) := two rfl (head ..)
theorem jnmIndex (rx : Reg) (dsp : Word) : Statement (.jnmIndex rx dsp) := two rfl (head ..)
theorem jnoDrct (dsp : Word) : Statement (.jnoDrct dsp) := two rfl (head ..)
theorem jnoIndex (rx : Reg) (dsp : Word) : Statement (.jnoIndex rx dsp) := two rfl (head ..)
theorem jhiDrct (dsp : Word) : Statement (.jhiDrct dsp) := two rfl (head ..)
theorem jhiIndex (rx : Reg) (dsp : Word) : Statement (.jhiIndex rx dsp) := two rfl (head ..)
theorem jlsDrct (dsp : Word) : Statement (.jlsDrct dsp) := two rfl (head ..)
theorem jlsIndex (rx : Reg) (dsp : Word) : Statement (.jlsIndex rx dsp) := two rfl (head ..)
theorem jmpDrct (dsp : Word) : Statement (.jmpDrct dsp) := two rfl (head ..)
theorem jmpIndex (rx : Reg) (dsp : Word) : Statement (.jmpIndex rx dsp) := two rfl (head ..)
theorem callDrct (dsp : Word) : Statement (.callDrct dsp) := two rfl (head ..)
theorem callIndex (rx : Reg) (dsp : Word) : Statement (.callIndex rx dsp) := two rfl (head ..)
theorem inDrct (rd : Reg) (dsp : Word) : Statement (.inDrct rd dsp) := two rfl (head ..)
theorem inIndr (rd rx : Reg) : Statement (.inIndr rd rx) := one rfl (head ..)
theorem inBIndr (rd rx : Reg) : Statement (.inBIndr rd rx) := one rfl (head ..)
theorem outDrct (rd : Reg) (dsp : Word) : Statement (.outDrct rd dsp) := two rfl (head ..)
theorem outIndr (rd rx : Reg) : Statement (.outIndr rd rx) := one rfl (head ..)
theorem outBIndr (rd rx : Reg) : Statement (.outBIndr rd rx) := one rfl (head ..)
theorem push (rd : Reg) : Statement (.push rd) := one rfl (head ..)
theorem pop (rd : Reg) : Statement (.pop rd) := one rfl (head ..)
theorem ret : Statement (.ret) := one rfl (head ..)
theorem reti : Statement (.reti) := one rfl (head ..)
theorem svc : Statement (.svc) := one rfl (head ..)
theorem halt : Statement (.halt) := one rfl (head ..)

end Sys2Proof.Laws.EncodeLength
end

