-- ==== Sys2Proof/Tests/Slice0.lean ====
section
/-! SUPPORT. The author's tests: ill-formed terms the WellFormed check refuses; a word of every constructor, written out
from the encoding of 30_encoding.md (Rd = Bh, Rx = Dh, Eh, Fh or 2h, second word 1234h or FEDCh), and what it decodes to;
single steps from 95_test_vectors.md; and for every statement with hypotheses a state and operands that meet them. -/

namespace Sys2Proof.Tests

open Sys2Proof Sys2Proof.Machine

/-! ### WellFormed -/

/-- A value outside the field's range is refused, for every constructor with that field (30_encoding.md R95). -/
theorem smoke_imm4_refused :
    (([
      .ldImm4 (.gen .g11) 8, .ldImm4 (.gen .g11) (-9), .addImm4 (.gen .g11) 8, .addImm4 (.gen .g11) (-9),
      .subImm4 (.gen .g11) 8, .subImm4 (.gen .g11) (-9), .cmpImm4 (.gen .g11) 8, .cmpImm4 (.gen .g11) (-9),
      .andImm4 (.gen .g11) 8, .andImm4 (.gen .g11) (-9), .orImm4 (.gen .g11) 8, .orImm4 (.gen .g11) (-9),
      .xorImm4 (.gen .g11) 8, .xorImm4 (.gen .g11) (-9), .addsImm4 (.gen .g11) 8, .addsImm4 (.gen .g11) (-9),
      .mulImm4 (.gen .g11) 8, .mulImm4 (.gen .g11) (-9), .divImm4 (.gen .g11) 8, .divImm4 (.gen .g11) (-9),
      .modImm4 (.gen .g11) 8, .modImm4 (.gen .g11) (-9), .shlaImm4 (.gen .g11) 8, .shlaImm4 (.gen .g11) (-9),
      .shllImm4 (.gen .g11) 8, .shllImm4 (.gen .g11) (-9), .shraImm4 (.gen .g11) 8, .shraImm4 (.gen .g11) (-9),
      .shrlImm4 (.gen .g11) 8, .shrlImm4 (.gen .g11) (-9)] : List Instr).all fun i => !i.wellFormed) = true := by decide

/-- A value outside the field's range is refused, for every constructor with that field (30_encoding.md R93). -/
theorem smoke_dsp4_refused :
    (([
      .ldFpRlt (.gen .g11) 16, .ldFpRlt (.gen .g11) 3, .ldFpRlt (.gen .g11) (-18), .stFpRlt (.gen .g11) 16,
      .stFpRlt (.gen .g11) 3, .stFpRlt (.gen .g11) (-18), .addFpRlt (.gen .g11) 16, .addFpRlt (.gen .g11) 3,
      .addFpRlt (.gen .g11) (-18), .subFpRlt (.gen .g11) 16, .subFpRlt (.gen .g11) 3, .subFpRlt (.gen .g11) (-18),
      .cmpFpRlt (.gen .g11) 16, .cmpFpRlt (.gen .g11) 3, .cmpFpRlt (.gen .g11) (-18), .andFpRlt (.gen .g11) 16,
      .andFpRlt (.gen .g11) 3, .andFpRlt (.gen .g11) (-18), .orFpRlt (.gen .g11) 16, .orFpRlt (.gen .g11) 3,
      .orFpRlt (.gen .g11) (-18), .xorFpRlt (.gen .g11) 16, .xorFpRlt (.gen .g11) 3, .xorFpRlt (.gen .g11) (-18),
      .addsFpRlt (.gen .g11) 16, .addsFpRlt (.gen .g11) 3, .addsFpRlt (.gen .g11) (-18), .mulFpRlt (.gen .g11) 16,
      .mulFpRlt (.gen .g11) 3, .mulFpRlt (.gen .g11) (-18), .divFpRlt (.gen .g11) 16, .divFpRlt (.gen .g11) 3,
      .divFpRlt (.gen .g11) (-18), .modFpRlt (.gen .g11) 16, .modFpRlt (.gen .g11) 3, .modFpRlt (.gen .g11) (-18),
      .shlaFpRlt (.gen .g11) 16, .shlaFpRlt (.gen .g11) 3, .shlaFpRlt (.gen .g11) (-18), .shllFpRlt (.gen .g11) 16,
      .shllFpRlt (.gen .g11) 3, .shllFpRlt (.gen .g11) (-18), .shraFpRlt (.gen .g11) 16, .shraFpRlt (.gen .g11) 3,
      .shraFpRlt (.gen .g11) (-18), .shrlFpRlt (.gen .g11) 16, .shrlFpRlt (.gen .g11) 3, .shrlFpRlt (.gen .g11) (-18)] : List Instr).all fun i => !i.wellFormed) = true := by decide

/-- The ends of both ranges are accepted. -/
theorem smoke_ends_accepted :
    (([.ldImm4 (.gen .g1) 7, .ldImm4 (.gen .g1) (-8), .ldFpRlt (.gen .g1) 14, .ldFpRlt (.gen .g1) (-16)] : List Instr).all
      Instr.wellFormed) = true := by decide

/-! ### Decoding, every constructor (30_encoding.md R91, R100 to R102) -/

theorem decode_NO : decodeWords [0x0000] = .instr (.no) := by decide

theorem decode_LD :
    [
      [0x08B0, 0x1234], [0x09BD, 0x1234], [0x0AB0, 0xFEDC], [0x0BB8], [0x0CBF], [0x0DB8], [0x0EBE], [0x0FB2]].map decodeWords = [
      .instr (.ldDrct (.gen .g11) 0x1234), .instr (.ldIndex (.gen .g11) .sp 0x1234),
      .instr (.ldImm (.gen .g11) 0xFEDC), .instr (.ldFpRlt (.gen .g11) (-16)), .instr (.ldReg (.gen .g11) .flag),
      .instr (.ldImm4 (.gen .g11) (-8)), .instr (.ldIndr (.gen .g11) .usp), .instr (.ldBIndr (.gen .g11) (.gen .g2))] := by decide

theorem decode_ST :
    [
      [0x10B0, 0x1234], [0x11BD, 0x1234], [0x13B8], [0x16BE], [0x17B2]].map decodeWords = [
      .instr (.stDrct (.gen .g11) 0x1234), .instr (.stIndex (.gen .g11) .sp 0x1234),
      .instr (.stFpRlt (.gen .g11) (-16)), .instr (.stIndr (.gen .g11) .usp), .instr (.stBIndr (.gen .g11) (.gen .g2))] := by decide

theorem decode_ADD :
    [
      [0x18B0, 0x1234], [0x19BD, 0x1234], [0x1AB0, 0xFEDC], [0x1BB8], [0x1CBF], [0x1DB8], [0x1EBE], [0x1FB2]].map decodeWords = [
      .instr (.addDrct (.gen .g11) 0x1234), .instr (.addIndex (.gen .g11) .sp 0x1234),
      .instr (.addImm (.gen .g11) 0xFEDC), .instr (.addFpRlt (.gen .g11) (-16)), .instr (.addReg (.gen .g11) .flag),
      .instr (.addImm4 (.gen .g11) (-8)), .instr (.addIndr (.gen .g11) .usp),
      .instr (.addBIndr (.gen .g11) (.gen .g2))] := by decide

theorem decode_SUB :
    [
      [0x20B0, 0x1234], [0x21BD, 0x1234], [0x22B0, 0xFEDC], [0x23B8], [0x24BF], [0x25B8], [0x26BE], [0x27B2]].map decodeWords = [
      .instr (.subDrct (.gen .g11) 0x1234), .instr (.subIndex (.gen .g11) .sp 0x1234),
      .instr (.subImm (.gen .g11) 0xFEDC), .instr (.subFpRlt (.gen .g11) (-16)), .instr (.subReg (.gen .g11) .flag),
      .instr (.subImm4 (.gen .g11) (-8)), .instr (.subIndr (.gen .g11) .usp),
      .instr (.subBIndr (.gen .g11) (.gen .g2))] := by decide

theorem decode_CMP :
    [
      [0x28B0, 0x1234], [0x29BD, 0x1234], [0x2AB0, 0xFEDC], [0x2BB8], [0x2CBF], [0x2DB8], [0x2EBE], [0x2FB2]].map decodeWords = [
      .instr (.cmpDrct (.gen .g11) 0x1234), .instr (.cmpIndex (.gen .g11) .sp 0x1234),
      .instr (.cmpImm (.gen .g11) 0xFEDC), .instr (.cmpFpRlt (.gen .g11) (-16)), .instr (.cmpReg (.gen .g11) .flag),
      .instr (.cmpImm4 (.gen .g11) (-8)), .instr (.cmpIndr (.gen .g11) .usp),
      .instr (.cmpBIndr (.gen .g11) (.gen .g2))] := by decide

theorem decode_AND :
    [
      [0x30B0, 0x1234], [0x31BD, 0x1234], [0x32B0, 0xFEDC], [0x33B8], [0x34BF], [0x35B8], [0x36BE], [0x37B2]].map decodeWords = [
      .instr (.andDrct (.gen .g11) 0x1234), .instr (.andIndex (.gen .g11) .sp 0x1234),
      .instr (.andImm (.gen .g11) 0xFEDC), .instr (.andFpRlt (.gen .g11) (-16)), .instr (.andReg (.gen .g11) .flag),
      .instr (.andImm4 (.gen .g11) (-8)), .instr (.andIndr (.gen .g11) .usp),
      .instr (.andBIndr (.gen .g11) (.gen .g2))] := by decide

theorem decode_OR :
    [
      [0x38B0, 0x1234], [0x39BD, 0x1234], [0x3AB0, 0xFEDC], [0x3BB8], [0x3CBF], [0x3DB8], [0x3EBE], [0x3FB2]].map decodeWords = [
      .instr (.orDrct (.gen .g11) 0x1234), .instr (.orIndex (.gen .g11) .sp 0x1234),
      .instr (.orImm (.gen .g11) 0xFEDC), .instr (.orFpRlt (.gen .g11) (-16)), .instr (.orReg (.gen .g11) .flag),
      .instr (.orImm4 (.gen .g11) (-8)), .instr (.orIndr (.gen .g11) .usp), .instr (.orBIndr (.gen .g11) (.gen .g2))] := by decide

theorem decode_XOR :
    [
      [0x40B0, 0x1234], [0x41BD, 0x1234], [0x42B0, 0xFEDC], [0x43B8], [0x44BF], [0x45B8], [0x46BE], [0x47B2]].map decodeWords = [
      .instr (.xorDrct (.gen .g11) 0x1234), .instr (.xorIndex (.gen .g11) .sp 0x1234),
      .instr (.xorImm (.gen .g11) 0xFEDC), .instr (.xorFpRlt (.gen .g11) (-16)), .instr (.xorReg (.gen .g11) .flag),
      .instr (.xorImm4 (.gen .g11) (-8)), .instr (.xorIndr (.gen .g11) .usp),
      .instr (.xorBIndr (.gen .g11) (.gen .g2))] := by decide

theorem decode_ADDS :
    [
      [0x48B0, 0x1234], [0x49BD, 0x1234], [0x4AB0, 0xFEDC], [0x4BB8], [0x4CBF], [0x4DB8], [0x4EBE], [0x4FB2]].map decodeWords = [
      .instr (.addsDrct (.gen .g11) 0x1234), .instr (.addsIndex (.gen .g11) .sp 0x1234),
      .instr (.addsImm (.gen .g11) 0xFEDC), .instr (.addsFpRlt (.gen .g11) (-16)),
      .instr (.addsReg (.gen .g11) .flag), .instr (.addsImm4 (.gen .g11) (-8)), .instr (.addsIndr (.gen .g11) .usp),
      .instr (.addsBIndr (.gen .g11) (.gen .g2))] := by decide

theorem decode_MUL :
    [
      [0x50B0, 0x1234], [0x51BD, 0x1234], [0x52B0, 0xFEDC], [0x53B8], [0x54BF], [0x55B8], [0x56BE], [0x57B2]].map decodeWords = [
      .instr (.mulDrct (.gen .g11) 0x1234), .instr (.mulIndex (.gen .g11) .sp 0x1234),
      .instr (.mulImm (.gen .g11) 0xFEDC), .instr (.mulFpRlt (.gen .g11) (-16)), .instr (.mulReg (.gen .g11) .flag),
      .instr (.mulImm4 (.gen .g11) (-8)), .instr (.mulIndr (.gen .g11) .usp),
      .instr (.mulBIndr (.gen .g11) (.gen .g2))] := by decide

theorem decode_DIV :
    [
      [0x58B0, 0x1234], [0x59BD, 0x1234], [0x5AB0, 0xFEDC], [0x5BB8], [0x5CBF], [0x5DB8], [0x5EBE], [0x5FB2]].map decodeWords = [
      .instr (.divDrct (.gen .g11) 0x1234), .instr (.divIndex (.gen .g11) .sp 0x1234),
      .instr (.divImm (.gen .g11) 0xFEDC), .instr (.divFpRlt (.gen .g11) (-16)), .instr (.divReg (.gen .g11) .flag),
      .instr (.divImm4 (.gen .g11) (-8)), .instr (.divIndr (.gen .g11) .usp),
      .instr (.divBIndr (.gen .g11) (.gen .g2))] := by decide

theorem decode_MOD :
    [
      [0x60B0, 0x1234], [0x61BD, 0x1234], [0x62B0, 0xFEDC], [0x63B8], [0x64BF], [0x65B8], [0x66BE], [0x67B2]].map decodeWords = [
      .instr (.modDrct (.gen .g11) 0x1234), .instr (.modIndex (.gen .g11) .sp 0x1234),
      .instr (.modImm (.gen .g11) 0xFEDC), .instr (.modFpRlt (.gen .g11) (-16)), .instr (.modReg (.gen .g11) .flag),
      .instr (.modImm4 (.gen .g11) (-8)), .instr (.modIndr (.gen .g11) .usp),
      .instr (.modBIndr (.gen .g11) (.gen .g2))] := by decide

theorem decode_SHLA :
    [
      [0x80B0, 0x1234], [0x81BD, 0x1234], [0x82B0, 0xFEDC], [0x83B8], [0x84BF], [0x85B8], [0x86BE], [0x87B2]].map decodeWords = [
      .instr (.shlaDrct (.gen .g11) 0x1234), .instr (.shlaIndex (.gen .g11) .sp 0x1234),
      .instr (.shlaImm (.gen .g11) 0xFEDC), .instr (.shlaFpRlt (.gen .g11) (-16)),
      .instr (.shlaReg (.gen .g11) .flag), .instr (.shlaImm4 (.gen .g11) (-8)), .instr (.shlaIndr (.gen .g11) .usp),
      .instr (.shlaBIndr (.gen .g11) (.gen .g2))] := by decide

theorem decode_SHLL :
    [
      [0x88B0, 0x1234], [0x89BD, 0x1234], [0x8AB0, 0xFEDC], [0x8BB8], [0x8CBF], [0x8DB8], [0x8EBE], [0x8FB2]].map decodeWords = [
      .instr (.shllDrct (.gen .g11) 0x1234), .instr (.shllIndex (.gen .g11) .sp 0x1234),
      .instr (.shllImm (.gen .g11) 0xFEDC), .instr (.shllFpRlt (.gen .g11) (-16)),
      .instr (.shllReg (.gen .g11) .flag), .instr (.shllImm4 (.gen .g11) (-8)), .instr (.shllIndr (.gen .g11) .usp),
      .instr (.shllBIndr (.gen .g11) (.gen .g2))] := by decide

theorem decode_SHRA :
    [
      [0x90B0, 0x1234], [0x91BD, 0x1234], [0x92B0, 0xFEDC], [0x93B8], [0x94BF], [0x95B8], [0x96BE], [0x97B2]].map decodeWords = [
      .instr (.shraDrct (.gen .g11) 0x1234), .instr (.shraIndex (.gen .g11) .sp 0x1234),
      .instr (.shraImm (.gen .g11) 0xFEDC), .instr (.shraFpRlt (.gen .g11) (-16)),
      .instr (.shraReg (.gen .g11) .flag), .instr (.shraImm4 (.gen .g11) (-8)), .instr (.shraIndr (.gen .g11) .usp),
      .instr (.shraBIndr (.gen .g11) (.gen .g2))] := by decide

theorem decode_SHRL :
    [
      [0x98B0, 0x1234], [0x99BD, 0x1234], [0x9AB0, 0xFEDC], [0x9BB8], [0x9CBF], [0x9DB8], [0x9EBE], [0x9FB2]].map decodeWords = [
      .instr (.shrlDrct (.gen .g11) 0x1234), .instr (.shrlIndex (.gen .g11) .sp 0x1234),
      .instr (.shrlImm (.gen .g11) 0xFEDC), .instr (.shrlFpRlt (.gen .g11) (-16)),
      .instr (.shrlReg (.gen .g11) .flag), .instr (.shrlImm4 (.gen .g11) (-8)), .instr (.shrlIndr (.gen .g11) .usp),
      .instr (.shrlBIndr (.gen .g11) (.gen .g2))] := by decide

theorem decode_JZ :
    [
      [0xA000, 0x1234], [0xA10C, 0x1234]].map decodeWords = [
      .instr (.jzDrct 0x1234), .instr (.jzIndex (.gen .fp) 0x1234)] := by decide

theorem decode_JC :
    [
      [0xA010, 0x1234], [0xA11C, 0x1234]].map decodeWords = [
      .instr (.jcDrct 0x1234), .instr (.jcIndex (.gen .fp) 0x1234)] := by decide

theorem decode_JM :
    [
      [0xA020, 0x1234], [0xA12C, 0x1234]].map decodeWords = [
      .instr (.jmDrct 0x1234), .instr (.jmIndex (.gen .fp) 0x1234)] := by decide

theorem decode_JO :
    [
      [0xA030, 0x1234], [0xA13C, 0x1234]].map decodeWords = [
      .instr (.joDrct 0x1234), .instr (.joIndex (.gen .fp) 0x1234)] := by decide

theorem decode_JGT :
    [
      [0xA040, 0x1234], [0xA14C, 0x1234]].map decodeWords = [
      .instr (.jgtDrct 0x1234), .instr (.jgtIndex (.gen .fp) 0x1234)] := by decide

theorem decode_JGE :
    [
      [0xA050, 0x1234], [0xA15C, 0x1234]].map decodeWords = [
      .instr (.jgeDrct 0x1234), .instr (.jgeIndex (.gen .fp) 0x1234)] := by decide

theorem decode_JLE :
    [
      [0xA060, 0x1234], [0xA16C, 0x1234]].map decodeWords = [
      .instr (.jleDrct 0x1234), .instr (.jleIndex (.gen .fp) 0x1234)] := by decide

theorem decode_JLT :
    [
      [0xA070, 0x1234], [0xA17C, 0x1234]].map decodeWords = [
      .instr (.jltDrct 0x1234), .instr (.jltIndex (.gen .fp) 0x1234)] := by decide

theorem decode_JNZ :
    [
      [0xA080, 0x1234], [0xA18C, 0x1234]].map decodeWords = [
      .instr (.jnzDrct 0x1234), .instr (.jnzIndex (.gen .fp) 0x1234)] := by decide

theorem decode_JNC :
    [
      [0xA090, 0x1234], [0xA19C, 0x1234]].map decodeWords = [
      .instr (.jncDrct 0x1234), .instr (.jncIndex (.gen .fp) 0x1234)] := by decide

theorem decode_JNM :
    [
      [0xA0A0, 0x1234], [0xA1AC, 0x1234]].map decodeWords = [
      .instr (.jnmDrct 0x1234), .instr (.jnmIndex (.gen .fp) 0x1234)] := by decide

theorem decode_JNO :
    [
      [0xA0B0, 0x1234], [0xA1BC, 0x1234]].map decodeWords = [
      .instr (.jnoDrct 0x1234), .instr (.jnoIndex (.gen .fp) 0x1234)] := by decide

theorem decode_JHI :
    [
      [0xA0C0, 0x1234], [0xA1CC, 0x1234]].map decodeWords = [
      .instr (.jhiDrct 0x1234), .instr (.jhiIndex (.gen .fp) 0x1234)] := by decide

theorem decode_JLS :
    [
      [0xA0E0, 0x1234], [0xA1EC, 0x1234]].map decodeWords = [
      .instr (.jlsDrct 0x1234), .instr (.jlsIndex (.gen .fp) 0x1234)] := by decide

theorem decode_JMP :
    [
      [0xA0F0, 0x1234], [0xA1FC, 0x1234]].map decodeWords = [
      .instr (.jmpDrct 0x1234), .instr (.jmpIndex (.gen .fp) 0x1234)] := by decide

theorem decode_CALL :
    [
      [0xA800, 0x1234], [0xA90C, 0x1234]].map decodeWords = [
      .instr (.callDrct 0x1234), .instr (.callIndex (.gen .fp) 0x1234)] := by decide

theorem decode_IN :
    [
      [0xB0B0, 0x1234], [0xB6BE], [0xB7B2]].map decodeWords = [
      .instr (.inDrct (.gen .g11) 0x1234), .instr (.inIndr (.gen .g11) .usp), .instr (.inBIndr (.gen .g11) (.gen .g2))] := by decide

theorem decode_OUT :
    [
      [0xB8B0, 0x1234], [0xBEBE], [0xBFB2]].map decodeWords = [
      .instr (.outDrct (.gen .g11) 0x1234), .instr (.outIndr (.gen .g11) .usp),
      .instr (.outBIndr (.gen .g11) (.gen .g2))] := by decide

theorem decode_PUSH : decodeWords [0xC010] = .instr (.push (.gen .g1)) := by decide

theorem decode_POP : decodeWords [0xC410] = .instr (.pop (.gen .g1)) := by decide

theorem decode_RET : decodeWords [0xD000] = .instr (.ret) := by decide

theorem decode_RETI : decodeWords [0xD4F0] = .instr (.reti) := by decide

theorem decode_SVC : decodeWords [0xF000] = .instr (.svc) := by decide

theorem decode_HALT : decodeWords [0xFF00] = .instr (.halt) := by decide

theorem decode_reserved_words :
    [[0x0001], [0x0A01, 0], [0xD400], [0xA8F0, 0], [0xA0D0, 0], [0xC011], [0xF001]].map decodeWords =
      List.replicate 7 .reserved := by decide

theorem decode_undefined_words :
    [[0x0100], [0x1210], [0x7FFF], [0xA2F0], [0xB100], [0xFE00]].map decodeWords = List.replicate 6 .undefined := by decide

/-! ### States and steps

The states of 95_test_vectors.md: the IPL ROM detached, pc = 0100h, privileged. `after ws s` is the state one step later,
the words `ws` standing at pc. Where the rule draws C and V a test looks at S and Z only. -/

/-- A state of the vectors, every register 0 but SSP = E000h and USP = C000h. -/
def base : State := { State.reset with iplAttached := false, pc := 0x0100, usp := 0xC000 }

/-- G1 and G2 given. -/
def g12 (a b : Word) : State := { base with regs := { Regs.zero with g1 := a, g2 := b } }

/-- FLAG given. -/
def flags (s : State) (w : Word) : State := { s with flag := Flag.ofWord w }

/-- Words in memory. -/
def words (s : State) (a : Word) : List Word → State
  | [] => s
  | w :: ws => words (s.storeWord a w) (a + 2) ws

/-- The pc saved by every exception given. -/
def saves (s : State) (p : Config.SavedPc) : State :=
  { s with params := { s.params with
      memViolationPc := p, zeroDividePc := p, privViolationPc := p, undefinedPc := p } }

/-- The state after one step, the words standing at pc. -/
def after (ws : List Word) (s : State) : Option State :=
  match step (words s s.pc ws) with
  | .next t => some t
  | _ => none

/-- The refusal of one step. -/
def refusal (ws : List Word) (s : State) : Option Refusal :=
  match step (words s s.pc ws) with
  | .refused r => some r
  | _ => none

/-- G1, pc and FLAG. -/
def g1PcFlag (t : State) : Word × Word × Word := (t.regs.g1, t.pc, t.flag.toWord)

/-- G1, pc, S and Z. -/
def g1PcSZ (t : State) : Word × Word × Bool × Bool := (t.regs.g1, t.pc, t.flag.s, t.flag.z)

/-- A trap: pc, FLAG, SSP, and the two words of the frame, FLAG first. -/
def trap (t : State) : List Word := [t.pc, t.flag.toWord, t.ssp, t.wordAt t.ssp, t.wordAt (t.ssp + 2)]

/-! ### Data movement (95_test_vectors.md 2.1) -/

theorem test_NO : (after [0x0000] base).map (fun t => (t.pc, t.flag)) = some (0x0102, base.flag) := by decide

theorem test_LD_index_wraps :
    (after [0x0912, 0xFFFE] (words (g12 0 4) 0x0002 [0x0011])).map g1PcFlag = some (0x0011, 0x0104, 0x0040) := by
  decide

theorem test_LD_flag_user :
    (after [0x0AF0, 0x00FF] (flags base 0)).map (fun t => (t.pc, t.flag.toWord)) = some (0x0104, 0x000F) := by decide

theorem test_ST_fp_relative :
    (after [0x1318] { base with regs := { Regs.zero with g1 := 0x7788, fp := 0x2010 } }).map
      (fun t => (t.byteAt 0x2000, t.byteAt 0x2001, t.pc)) = some (0x77, 0x88, 0x0102) := by decide

theorem test_ST_byte_keeps_neighbour :
    (after [0x1712] (words (g12 0x1234 0x2001) 0x2000 [0xAAAA])).map (fun t => (t.wordAt 0x2000, t.pc)) =
      some (0xAA34, 0x0102) := by decide

/-! ### Arithmetic and logic (95_test_vectors.md 2.2) -/

theorem test_ADD_overflow : (after [0x1C12] (g12 0x7FFF 1)).map g1PcFlag = some (0x8000, 0x0102, 0x004A) := by decide

theorem test_ADD_carry : (after [0x1C12] (g12 0x8000 0x8000)).map g1PcFlag = some (0, 0x0102, 0x004D) := by decide

theorem test_SUB_borrow : (after [0x2412] (g12 0 1)).map g1PcFlag = some (0xFFFF, 0x0102, 0x0046) := by decide

theorem test_SUB_overflow : (after [0x2412] (g12 0x7FFF 0xFFFF)).map g1PcFlag = some (0x8000, 0x0102, 0x004E) := by
  decide

theorem test_CMP : (after [0x2C12] (g12 1 0x8000)).map g1PcFlag = some (1, 0x0102, 0x004E) := by decide

theorem test_AND : (after [0x3412] (g12 0x00F0 0x0F0F)).map g1PcSZ = some (0, 0x0102, false, true) := by decide

theorem test_OR : (after [0x3C12] (g12 0x00F0 0x8001)).map g1PcSZ = some (0x80F1, 0x0102, true, false) := by decide

theorem test_XOR : (after [0x451F] (g12 0x00FF 0)).map g1PcSZ = some (0xFF00, 0x0102, true, false) := by decide

theorem test_ADDS : (after [0x4C12] (g12 0x1000 3)).map g1PcSZ = some (0x1006, 0x0102, false, false) := by decide

theorem test_MUL : (after [0x5412] (g12 0xFFFF 0xFFFF)).map g1PcSZ = some (1, 0x0102, false, false) := by decide

theorem test_DIV : (after [0x5D13] (g12 0x0011 0)).map g1PcSZ = some (5, 0x0102, false, false) := by decide

theorem test_DIV_zero :
    (after [0x5C12] (words (saves (g12 5 0) .this) 0xFFF8 [0xE500])).map
      (fun t => (t.regs.g1, t.pc, t.ssp, t.wordAt 0xDFFE, t.flag.p)) = some (5, 0xE500, 0xDFFC, 0x0100, true) := by decide

theorem test_MOD : (after [0x6412] (g12 0x7FFF 0x0100)).map g1PcSZ = some (0x00FF, 0x0102, false, false) := by decide

theorem test_MOD_zero_user :
    (after [0x6510] (words (saves (flags (g12 5 0) 0x0080) .next) 0xFFF8 [0xE500])).map
      (fun t => (t.regs.g1, t.pc, t.ssp, t.usp, t.wordAt 0xDFFE)) = some (5, 0xE500, 0xDFFC, 0xC000, 0x0102) := by decide

theorem test_ADD_to_flag_refused : refusal [0x1DF1] base = some .flagDestination := by decide

/-! ### Shifts (95_test_vectors.md 2.3) -/

theorem test_SHLA : (after [0x8511] (g12 0x4000 0)).map g1PcSZ = some (0x8000, 0x0102, true, false) := by decide

theorem test_SHLL : (after [0x8C12] (g12 1 15)).map g1PcSZ = some (0x8000, 0x0102, true, false) := by decide

theorem test_SHLL_count_16 : (after [0x8C12] (g12 1 16)).map (fun t => (t.pc, t.regs.g2, t.flag.p)) = some (0x0102, 16, true) := by
  decide

theorem test_SHRA : (after [0x9412] (g12 0x8000 15)).map g1PcSZ = some (0xFFFF, 0x0102, true, false) := by decide

theorem test_SHRL : (after [0x9D12] (g12 0xFFF0 0)).map g1PcSZ = some (0x3FFC, 0x0102, false, false) := by decide

/-! ### Jumps and CALL (95_test_vectors.md 2.4) -/

/-- The pc after a jump to 0200h with FLAG given. -/
def jumped (w f : Word) : Option Word := (after [w, 0x0200] (flags base f)).map (·.pc)

theorem test_jumps :
    [jumped 0xA000 0x41, jumped 0xA010 0x44, jumped 0xA020 0x42, jumped 0xA030 0x48, jumped 0xA040 0x4A, jumped 0xA060 0x41] =
      List.replicate 6 (some 0x0200) := by decide

theorem test_jumps_more :
    [jumped 0xA070 0x48, jumped 0xA080 0x40, jumped 0xA0A0 0x40, jumped 0xA0C0 0x40, jumped 0xA0E0 0x44, jumped 0xA0F0 0x40] =
      List.replicate 6 (some 0x0200) := by decide

theorem test_jumps_not_taken :
    [jumped 0xA000 0x40, jumped 0xA050 0x42, jumped 0xA090 0x44, jumped 0xA0B0 0x48, jumped 0xA0C0 0x44] =
      List.replicate 5 (some 0x0104) := by decide

theorem test_JMP_index : (after [0xA1F1, 0x0010] (g12 0x0300 0)).map (·.pc) = some 0x0310 := by decide

theorem test_CALL_user :
    (after [0xA800, 0x0200] (flags base 0)).map (fun t => (t.pc, t.usp, t.ssp, t.wordAt 0xBFFE)) =
      some (0x0200, 0xBFFE, 0xE000, 0x0104) := by decide

theorem test_CALL_target_before_sp :
    (after [0xA90D, 0x0000] { base with ssp := 0x0400 }).map (fun t => (t.pc, t.ssp, t.wordAt 0x03FE)) =
      some (0x0400, 0x03FE, 0x0104) := by decide

/-! ### IN and OUT (95_test_vectors.md 2.5) -/

theorem test_IN_zero_byte :
    (after [0xB712] (g12 0 0x000A)).map (fun t => (t.regs.g1, t.trace, t.pc)) =
      some (0, [⟨.input, 0x000A, 1, 0⟩], 0x0102) := by decide

theorem test_IN_no_privilege :
    (after [0xB000, 0x0008] (words (saves (flags base 0x80) .this) 0xFFFA [0xE300])).map trap =
      some [0xE300, 0x0040, 0xDFFC, 0x0080, 0x0100] := by decide

theorem test_OUT_timer :
    (after [0xB800, 0x0002] { base with regs := { Regs.zero with g0 := 0x8001 } }).map
      (fun t => (t.timer0Ctrl, t.trace, t.irqEnabled 9)) = some (0x8001, [⟨.output, 0x0002, 2, 0x8001⟩], true) := by decide

theorem test_OUT_detach :
    (after [0xB810, 0x00A0] { g12 1 0 with iplAttached := true }).map (fun t => (t.iplAttached, t.pc)) =
      some (false, 0x0104) := by decide

/-! ### Stack, system, undefined instructions (95_test_vectors.md 2.6) -/

theorem test_PUSH_flag :
    (after [0xC0F0] (flags base 0x00C1)).map (fun t => (t.ssp, t.wordAt 0xDFFE, t.pc)) = some (0xDFFE, 0x00C1, 0x0102) := by
  decide

theorem test_PUSH_sp_refused : refusal [0xC0D0] base = some .pushSp := by decide

theorem test_POP :
    (after [0xC420] (words { base with ssp := 0xDFFE } 0xDFFE [0x1234])).map (fun t => (t.regs.g2, t.ssp, t.pc)) =
      some (0x1234, 0xE000, 0x0102) := by decide

theorem test_POP_flag_to_user :
    (after [0xC4F0] (words { base with ssp := 0xDFFE } 0xDFFE [0x0085])).map
      (fun t => (t.flag.toWord, t.ssp, t.usp)) = some (0x0085, 0xE000, 0xC000) := by decide

theorem test_RET :
    (after [0xD000] (words { base with ssp := 0xDFFE } 0xDFFE [0x0104])).map (fun t => (t.pc, t.ssp)) =
      some (0x0104, 0xE000) := by decide

theorem test_RETI :
    (after [0xD4F0] (words { base with ssp := 0xDFFC } 0xDFFC [0xFFFF, 0x0300])).map
      (fun t => (t.pc, t.ssp, t.flag.toWord)) = some (0x0300, 0xE000, 0x00EF) := by decide

theorem test_RETI_user :
    (after [0xD4F0] (words { flags base 0x80 with usp := 0xBFFC } 0xBFFC [0x006F, 0x0300])).map
      (fun t => (t.pc, t.usp, t.flag.toWord)) = some (0x0300, 0xC000, 0x008F) := by decide

theorem test_SVC :
    (after [0xF000] (words { flags base 0x25 with pc := 0x0400 } 0xFFFE [0xE100])).map trap =
      some [0xE100, 0x0065, 0xDFFC, 0x0025, 0x0402] := by decide

theorem test_HALT :
    (after [0xFF00] { base with pc := 0x0110 }).map (fun t => (t.pc, t.halted)) = some (0x0112, true) := by decide

theorem test_HALT_user :
    (after [0xFF00] (words (saves (flags { base with pc := 0x0110 } 0xA0) .this) 0xFFFA [0xE300])).map trap =
      some [0xE300, 0x0060, 0xDFFC, 0x00A0, 0x0110] := by decide

theorem test_undefined_op :
    (after [0xFE00] (words (saves (flags base 0x82) .this) 0xFFFC [0xE200])).map trap =
      some [0xE200, 0x0042, 0xDFFC, 0x0082, 0x0100] := by decide

theorem test_undefined_op_next :
    (after [0xB100] (words (saves base .next) 0xFFFC [0xE200])).map trap =
      some [0xE200, 0x0040, 0xDFFC, 0x0040, 0x0102] := by decide

theorem test_reserved_field : refusal [0x0001] base = some (.reservedField 0x0001) := by decide

/-! ### Interrupt acceptance (95_test_vectors.md 2.7) -/

/-- The first row's boundary: Timer0 requesting, user mode, E = 1. -/
def timerRequest : State := words { flags base 0x85 with pc := 0x0200, pending := pendingBit 9 } 0xFFF2 [0xE400]

theorem test_interrupt :
    (match timerRequest.takeInterrupt 9 with
      | .next t => some (trap t, t.pending, t.usp)
      | _ => none) = some ([0xE400, 0x0045, 0xDFFC, 0x0085, 0x0200], 0, 0xC000) := by decide

theorem test_interrupt_masked :
    (after [0x0000] { flags timerRequest 0x05 with pc := 0x0200 }).map (fun t => (t.pc, t.pending)) =
      some (0x0202, pendingBit 9) := by decide

/-! ### Witnesses

For every statement with hypotheses, a state and operands that meet all of them together; for a statement of several
clauses, one for each, at the ends of its range. -/

/-- The user-mode state without and with the I flag. -/
def user : State := flags base 0
def userIo : State := flags base 0x20

/-- The state with the IPL ROM attached. -/
def withRom : State := { base with iplAttached := true }

theorem writable {s : State} {a : Word} (h1 : s.mmuOn = false) (h2 : a.toNat % 2 = 0) (h3 : s.iplCovers a = false) :
    s.wordWritable a := ⟨⟨h1, h2⟩, h3⟩

theorem base_frame : base.frameWritable := ⟨writable rfl rfl rfl, writable rfl rfl rfl⟩

theorem user_frame : user.frameWritable := ⟨writable rfl rfl rfl, writable rfl rfl rfl⟩

theorem quiet_of {s : State} (h1 : s.halted = false) (h2 : s.io = []) (h3 : s.flag.e = false) : s.quiet := by
  refine ⟨h1, fun n => ?_, .inl h3⟩
  have h : ∀ a, s.ioReg a = ioResetByte a := fun a => by simp [State.ioReg, h2, Memory.get?]
  unfold State.irqEnabled
  split <;> simp [State.pioMask, State.pioXor, State.usdCtrl, State.tecCtrl, State.ft232rlCtrl, State.rn4020Ctrl,
    State.timer0Ctrl, State.timer1Ctrl, State.ioRegWord, h, ioResetByte, wordOfBytes]

theorem operand : Reg.gen .g1 ≠ .flag ∧ base.value (.imm 5) = .ok 5 := ⟨by decide, rfl⟩

theorem witness_NoOnlyAdvancesPc :
    ((0x0001 : Word).extractLsb' 8 8 = 0 ∧ (0x0001 : Word) ≠ 0) ∧ (0x00FF : Word).extractLsb' 8 8 = 0 ∧ (0x00FF : Word) ≠ 0 := by
  decide

theorem witness_LoadWritesOperand : Reg.gen .g1 ≠ .flag ∧ base.value (.imm 5) = .ok 5 := operand

theorem witness_LoadToFlag : base.value (.imm 0xFFFF) = .ok 0xFFFF ∧ user.value (.imm 0xFFFF) = .ok 0xFFFF := ⟨rfl, rfl⟩

theorem witness_OperandValues :
    base.wordReadable 0xFFFE ∧ (g12 4 0).wordReadable (0xFFFE + (g12 4 0).readReg (.gen .g1)) ∧
    base.wordReadable ((8 : BitVec 4).signExtend 16 * 2 + base.readReg (.gen .fp)) ∧
    base.wordReadable (base.readReg .sp) ∧ base.mmuOn = false :=
  ⟨⟨rfl, rfl⟩, ⟨rfl, rfl⟩, ⟨rfl, rfl⟩, ⟨rfl, rfl⟩, rfl⟩

theorem witness_StoreWritesMemory :
    (isByteForm (.drct 0xFFFE) = false ∧ base.wordWritable (base.addr (.drct 0xFFFE))) ∧
    isByteForm (.bIndr (.gen .g2)) = true ∧ (g12 0 0xFFFF).byteWritable ((g12 0 0xFFFF).addr (.bIndr (.gen .g2))) :=
  ⟨⟨rfl, writable rfl rfl rfl⟩, rfl, rfl, rfl⟩

theorem witness_AddResult : Reg.gen .g1 ≠ .flag ∧ base.value (.imm 5) = .ok 5 := operand

theorem witness_SubResult : Reg.gen .g1 ≠ .flag ∧ base.value (.imm 5) = .ok 5 := operand

theorem witness_CmpResult : Reg.gen .g1 ≠ .flag ∧ base.value (.imm 5) = .ok 5 := operand

theorem witness_LogicResults :
    (∀ op ∈ [EaOp.and, .or, .xor], ∃ f : Word → Word → Word,
      (op = .and ∧ f = (· &&& ·)) ∨ (op = .or ∧ f = (· ||| ·)) ∨ (op = .xor ∧ f = (· ^^^ ·))) ∧
    Reg.gen .g1 ≠ .flag ∧ base.value (.imm 5) = .ok 5 := by
  refine ⟨fun op h => ?_, operand⟩
  simp only [List.mem_cons, List.not_mem_nil, or_false] at h
  rcases h with rfl | rfl | rfl
  exacts [⟨_, .inl ⟨rfl, rfl⟩⟩, ⟨_, .inr (.inl ⟨rfl, rfl⟩)⟩, ⟨_, .inr (.inr ⟨rfl, rfl⟩)⟩]

theorem witness_ScaleAndMultiplyResults :
    (∀ op ∈ [EaOp.adds, .mul], ∃ f : Nat → Nat → Nat,
      (op = .adds ∧ f = fun x y => x + 2 * y) ∨ (op = .mul ∧ f = fun x y => x * y)) ∧
    Reg.gen .g1 ≠ .flag ∧ base.value (.imm 5) = .ok 5 := by
  refine ⟨fun op h => ?_, operand⟩
  simp only [List.mem_cons, List.not_mem_nil, or_false] at h
  rcases h with rfl | rfl
  exacts [⟨_, .inl ⟨rfl, rfl⟩⟩, ⟨_, .inr ⟨rfl, rfl⟩⟩]

/-- The divisors 7FFFh (both operands below 8000h) and 8000h (one not). -/
theorem witness_DivideResults :
    (∀ op ∈ [EaOp.div, .mod], ∃ (f : Nat → Nat → Nat) (g : Word → Word → Word),
      (op = .div ∧ f = (· / ·) ∧ g = Config.divFn) ∨ (op = .mod ∧ f = (· % ·) ∧ g = Config.modFn)) ∧
    Reg.gen .g1 ≠ .flag ∧ (g12 0x7FFF 0).value (.imm 0x7FFF) = .ok 0x7FFF ∧ (g12 0x7FFF 0).value (.imm 0x8000) = .ok 0x8000 ∧
    (0x7FFF : Word) ≠ 0 ∧ (0x8000 : Word) ≠ 0 ∧ ((g12 0x7FFF 0).readReg (.gen .g1)).toNat < 2 ^ 15 ∧
    (0x7FFF : Word).toNat < 2 ^ 15 ∧ ¬ (0x8000 : Word).toNat < 2 ^ 15 := by
  refine ⟨fun op h => ?_, by decide, rfl, rfl, by decide, by decide, by decide, by decide, by decide⟩
  simp only [List.mem_cons, List.not_mem_nil, or_false] at h
  rcases h with rfl | rfl
  exacts [⟨_, _, .inl ⟨rfl, rfl, rfl⟩⟩, ⟨_, _, .inr ⟨rfl, rfl, rfl⟩⟩]

theorem witness_DivideByZeroTraps :
    (EaOp.div = .div ∨ EaOp.div = .mod) ∧ Reg.gen .g1 ≠ .flag ∧ (saves base .this).value (.imm 0) = .ok 0 ∧
    (saves base .this).frameWritable ∧ (saves base .this).params.zeroDividePc = .this ∧
    (saves base .next).value (.imm 0) = .ok 0 ∧ (saves base .next).frameWritable ∧
    (saves base .next).params.zeroDividePc = .next :=
  ⟨.inl rfl, by decide, rfl, base_frame, rfl, rfl, base_frame, rfl⟩

theorem witness_FlagDestinationRefused : EaOp.add ≠ .ld := by decide

theorem witness_OverflowFlagsMeanOverflow : Reg.gen .g1 ≠ .flag ∧ base.value (.imm 5) = .ok 5 := operand

/-- The counts 0 and 15, for every shift. -/
theorem counts : Reg.gen .g1 ≠ .flag ∧ base.value (.imm 0) = .ok 0 ∧ (0 : Word).toNat ≤ 15 ∧ base.value (.imm 15) = .ok 15 ∧
    (15 : Word).toNat ≤ 15 := ⟨by decide, rfl, by decide, rfl, by decide⟩

theorem witness_ShiftLeftResults :
    (EaOp.shla = .shla ∨ EaOp.shla = .shll) ∧ (EaOp.shll = .shla ∨ EaOp.shll = .shll) ∧ Reg.gen .g1 ≠ .flag ∧
    base.value (.imm 0) = .ok 0 ∧ (0 : Word).toNat ≤ 15 ∧ base.value (.imm 15) = .ok 15 ∧ (15 : Word).toNat ≤ 15 :=
  ⟨.inl rfl, .inr rfl, counts⟩

theorem witness_ShiftRightResults : Reg.gen .g1 ≠ .flag ∧ base.value (.imm 0) = .ok 0 ∧ (0 : Word).toNat ≤ 15 ∧
    base.value (.imm 15) = .ok 15 ∧ (15 : Word).toNat ≤ 15 := counts

theorem witness_ShiftByLargeCountCompletes :
    (EaOp.shrl = .shla ∨ EaOp.shrl = .shll ∨ EaOp.shrl = .shra ∨ EaOp.shrl = .shrl) ∧ Reg.gen .g1 ≠ .flag ∧
    base.value (.imm 16) = .ok 16 ∧ 16 ≤ (16 : Word).toNat := ⟨by decide, by decide, rfl, by decide⟩

theorem witness_CompareThenJump : Reg.gen .g1 ≠ .flag ∧ base.value (.imm 5) = .ok 5 := operand

theorem witness_CallPushesReturnAddress :
    callRow (.drct 0x0200) = some (.callDrct 0x0200) ∧ callRow (.index 0 .sp) = some (.callIndex .sp 0) ∧
    base.wordWritable (base.readReg .sp - 2) ∧ user.wordWritable (user.readReg .sp - 2) :=
  ⟨rfl, rfl, writable rfl rfl rfl, writable rfl rfl rfl⟩

theorem witness_CallThenRet :
    callRow (.drct 0x0200) = some (.callDrct 0x0200) ∧ base.wordWritable (base.readReg .sp - 2) ∧
    ∃ t, exec (.callDrct 0x0200) base = .next t := ⟨rfl, writable rfl rfl rfl, _, rfl⟩

/-- IN of a word at 00h and FEh, of a byte at FFh; at A4h and A7h, and outside that range. -/
theorem witness_InDeliversOneRead :
    inRow .flag (.drct 0) = some (.inDrct .flag 0) ∧ inRow (.gen .g1) (.bIndr (.gen .g2)) = some (.inBIndr (.gen .g1) (.gen .g2)) ∧
    (base.flag.p = true ∨ base.flag.i = true) ∧ (userIo.flag.p = true ∨ userIo.flag.i = true) ∧
    ioAccess (.drct 0) (base.addr (.drct 0)) ∧ ioAccess (.drct 0xFE) (userIo.addr (.drct 0xFE)) ∧
    ioAccess (.bIndr (.gen .g2)) ((g12 0 0xFF).addr (.bIndr (.gen .g2))) ∧
    ioAccess (.drct 0xA4) (base.addr (.drct 0xA4)) ∧ (0xA2 : Word).toNat < 0xA4 ∧ 0xA7 < (0xA8 : Word).toNat :=
  ⟨rfl, rfl, .inl rfl, .inr rfl, ⟨by decide, fun _ => rfl⟩, ⟨by decide, fun _ => rfl⟩, ⟨by decide, nofun⟩,
    ⟨by decide, fun _ => rfl⟩, by decide, by decide⟩

theorem admits {s : State} {m : MemEa} (h1 : s.flag.p = true ∨ s.flag.i = true) (h2 : (s.addr m).toNat ≤ 0xFF)
    (h3 : (s.addr m).toNat % 2 = 0) : s.ioAdmits m := ⟨h1, h2, fun _ => h3⟩

theorem admitsByte {s : State} {rx : Reg} (h1 : s.flag.p = true ∨ s.flag.i = true) (h2 : (s.addr (.bIndr rx)).toNat ≤ 0xFF) :
    s.ioAdmits (.bIndr rx) := ⟨h1, h2, nofun⟩

/-- A byte at a port, by the address in G2: IN and OUT may make it, and it reaches that port byte. -/
theorem byte_port (a : Word) (x v : Word) (h : a.toNat ≤ 0xFF) :
    (g12 x a).ioAdmits (.bIndr (.gen .g2)) ∧
    accessByte (.bIndr (.gen .g2)) ((g12 x a).addr (.bIndr (.gen .g2))) v a.toNat = some (v.extractLsb' 0 8) :=
  ⟨admitsByte (.inl rfl) h, (if_pos rfl).trans (if_pos rfl)⟩

/-- A word at a port, by its address: it reaches the two port bytes. -/
theorem word_port (s : State) (a v : Word) (hp : s.flag.p = true ∨ s.flag.i = true) (h : a.toNat ≤ 0xFF) (h2 : a.toNat % 2 = 0) :
    s.ioAdmits (.drct a) ∧ accessByte (.drct a) (s.addr (.drct a)) v a.toNat = some (v.extractLsb' 8 8) ∧
    accessByte (.drct a) (s.addr (.drct a)) v (a.toNat + 1) = some (v.extractLsb' 0 8) :=
  ⟨admits hp h h2, (if_neg nofun).trans (if_pos rfl), (if_neg nofun).trans ((if_neg (Nat.succ_ne_self _)).trans (if_pos rfl))⟩

/-- Every clause at the ends of its range, by a byte IN (`byte_port`), and by a word IN (`word_port`) at 10h, 2Ch, 32h, 80h,
9Eh and FEh. -/
theorem witness_InFixedBits :
    inRow (.gen .g1) (.bIndr (.gen .g2)) = some (.inBIndr (.gen .g1) (.gen .g2)) ∧
    inRow .flag (.drct 0x10) = some (.inDrct .flag 0x10) ∧
    ((([0x08, 0x10, 0x18, 0x33, 0x35, 0x38, 0x39, 0x80, 0x9C, 0xA0, 0xA2, 0xA8, 0xFC, 0xFE, 0x0B, 0x0F, 0x2B, 0x11, 0x1F,
        0x2D, 0xFD, 0xFF, 0x81, 0x82, 0x83, 0x9D, 0x9E, 0x9F] : List Word).all fun a => decide (a.toNat ≤ 0xFF)) = true) ∧
    ((([0x10, 0x2C, 0x32, 0x80, 0x9E, 0xFE] : List Word).all fun a => decide (a.toNat ≤ 0xFF ∧ a.toNat % 2 = 0)) = true) :=
  ⟨rfl, rfl, by decide, by decide⟩

/-- OUT of a word at 00h, 7Eh, AAh and FEh and of a byte at FFh. -/
theorem witness_OutToDevice :
    outRow (.gen .g1) (.drct 0xFE) = some (.outDrct (.gen .g1) 0xFE) ∧
    outRow (.gen .g1) (.bIndr (.gen .g2)) = some (.outBIndr (.gen .g1) (.gen .g2)) ∧
    base.ioAdmits (.drct 0x00) ∧ base.ioAdmits (.drct 0x7E) ∧ base.ioAdmits (.drct 0xAA) ∧ userIo.ioAdmits (.drct 0xFE) ∧
    (g12 1 0xFF).ioAdmits (.bIndr (.gen .g2)) ∧ ioWf base.io ∧ ((0x7E : Word).toNat < 0x80 ∧ 0xAA ≤ (0xAA : Word).toNat) :=
  ⟨rfl, rfl, admits (.inl rfl) (by decide) rfl, admits (.inl rfl) (by decide) rfl, admits (.inl rfl) (by decide) rfl,
    admits (.inr rfl) (by decide) rfl, admitsByte (.inl rfl) (by decide), by decide, by decide, by decide⟩

/-- OUT of a word (`word_port`) at 80h, 9Eh, A4h, A6h and A8h, of a byte (`byte_port`) at 80h, 9Fh, A0h, A2h, A4h, A7h and A9h:
none of them reaches A1h or A3h. -/
theorem witness_OutToMmuRegisters :
    outRow (.gen .g1) (.drct 0x80) = some (.outDrct (.gen .g1) 0x80) ∧
    outRow (.gen .g1) (.bIndr (.gen .g2)) = some (.outBIndr (.gen .g1) (.gen .g2)) ∧
    ((([0x80, 0x9E, 0xA4, 0xA6, 0xA8] : List Word).all fun a => decide (a.toNat % 2 = 0 ∧ 0x80 ≤ a.toNat ∧ a.toNat < 0xAA ∧
      accessByte (.drct a) a 0x1234 0xA1 = none ∧ accessByte (.drct a) a 0x1234 0xA3 = none)) = true) ∧
    ((([0x80, 0x9F, 0xA0, 0xA2, 0xA4, 0xA7, 0xA9] : List Word).all fun a => decide (0x80 ≤ a.toNat ∧ a.toNat < 0xAA ∧
      accessByte (.bIndr (.gen .g2)) a 0x1234 0xA1 = none ∧ accessByte (.bIndr (.gen .g2)) a 0x1234 0xA3 = none)) = true) ∧
    accessByte (.drct 0x9E) 0x9E 0x1234 0xA9 = none ∧ accessByte (.bIndr (.gen .g2)) 0xA4 0x1234 0xA9 = none :=
  ⟨rfl, rfl, by decide, by decide, by decide, by decide⟩

/-- OUT of 1, 2 and 4 as a word to A2h and as a byte to A3h. -/
theorem witness_MmuEnableRefused :
    outRow (.gen .g1) (.drct 0xA2) = some (.outDrct (.gen .g1) 0xA2) ∧ base.ioAdmits (.drct 0xA2) ∧
    userIo.ioAdmits (.drct 0xA2) ∧ (g12 1 0xA3).ioAdmits (.bIndr (.gen .g2)) ∧
    accessByte (.drct 0xA2) 0xA2 1 0xA3 = some 1 ∧ accessByte (.bIndr (.gen .g2)) 0xA3 2 0xA3 = some 2 ∧
    accessByte (.drct 0xA2) 0xA2 4 0xA3 = some 4 ∧ accessByte (.bIndr (.gen .g2)) 0xA3 4 0xA3 = some 4 ∧
    ((1 : Byte).getLsbD 0 = true ∧ (2 : Byte).getLsbD 1 = true ∧ (4 : Byte).getLsbD 0 = false ∧ (4 : Byte).getLsbD 1 = false) :=
  ⟨rfl, admits (.inl rfl) (by decide) rfl, admits (.inr rfl) (by decide) rfl, admitsByte (.inl rfl) (by decide), by decide,
    by decide, by decide, by decide, by decide⟩

theorem witness_IoWithoutPrivilegeTraps :
    (inRow (.gen .g0) (.drct 8) = some (.inDrct (.gen .g0) 8) ∨ outRow (.gen .g0) (.drct 8) = some (.inDrct (.gen .g0) 8)) ∧
    (inRow (.gen .g0) (.drct 8) = some (.outDrct (.gen .g0) 8) ∨ outRow (.gen .g0) (.drct 8) = some (.outDrct (.gen .g0) 8)) ∧
    user.flag.p = false ∧ user.flag.i = false ∧ (saves user .this).frameWritable ∧ (saves user .next).frameWritable ∧
    (saves user .this).params.privViolationPc = .this ∧ (saves user .next).params.privViolationPc = .next :=
  ⟨.inl rfl, .inr rfl, rfl, rfl, user_frame, user_frame, rfl, rfl⟩

/-- The addresses 0100h, and 00FFh for a word. -/
theorem witness_IoAddressStops :
    (inRow (.gen .g0) (.drct 0x100) = some (.inDrct (.gen .g0) 0x100) ∨
      outRow (.gen .g0) (.drct 0x100) = some (.inDrct (.gen .g0) 0x100)) ∧
    (base.flag.p = true ∨ base.flag.i = true) ∧ 0xFF < (base.addr (.drct 0x100)).toNat ∧
    (base.addr (.drct 0xFF)).toNat ≤ 0xFF ∧ isByteForm (.drct 0xFF) = false ∧ (base.addr (.drct 0xFF)).toNat % 2 = 1 := by
  decide

/-- E000h and FFFFh with the ROM attached; 1 and 0 as a word to A0h and as a byte to A1h, in privileged mode and in user mode
with I = 1, with the ROM attached and not. -/
theorem witness_IplRegionAndDetach :
    (withRom.iplAttached = true ∧ 0xE000 ≤ (0xE000 : Word).toNat ∧ 0xE000 ≤ (0xFFFF : Word).toNat ∧ withRom.mmuOn = false ∧
      (0xE000 : Word).toNat % 2 = 0) ∧
    outRow (.gen .g1) (.drct 0xA0) = some (.outDrct (.gen .g1) 0xA0) ∧ withRom.ioAdmits (.drct 0xA0) ∧
    base.ioAdmits (.drct 0xA0) ∧ userIo.ioAdmits (.drct 0xA0) ∧ (g12 1 0xA1).ioAdmits (.bIndr (.gen .g2)) ∧
    accessByte (.drct 0xA0) 0xA0 1 0xA1 = some 1 ∧ accessByte (.drct 0xA0) 0xA0 2 0xA1 = some 2 ∧
    accessByte (.bIndr (.gen .g2)) 0xA1 1 0xA1 = some 1 ∧
    ((1 : Byte).getLsbD 0 = true ∧ (2 : Byte).getLsbD 0 = false ∧ base.iplAttached = false) :=
  ⟨by decide, rfl, admits (.inl rfl) (by decide) rfl, admits (.inl rfl) (by decide) rfl, admits (.inr rfl) (by decide) rfl,
    admitsByte (.inl rfl) (by decide), by decide, by decide, by decide, by decide⟩

theorem witness_PushStoresRegister :
    base.namesSp .flag = false ∧ base.namesSp .usp = false ∧ base.wordWritable (base.readReg .sp - 2) :=
  ⟨rfl, rfl, writable rfl rfl rfl⟩

theorem witness_PopLoadsRegister :
    base.namesSp (.gen .g2) = false ∧ base.namesSp .flag = false ∧ base.wordReadable (base.readReg .sp) :=
  ⟨rfl, rfl, rfl, rfl⟩

theorem witness_PushPopOfStackPointer : user.flag.p = false ∧ base.flag.p = true := by decide

/-- A readable stack, and one whose read raises. -/
theorem witness_RetPopsPc :
    base.wordReadable (base.readReg .sp) ∧
    ({ base with ssp := 1, params := { base.params with misaligned := .memViolation } } : State).readWord 1 =
      .error (.raise .memViolation) := ⟨⟨rfl, rfl⟩, rfl⟩

theorem witness_RetiRestoresFlagAndPc :
    base.wordReadable (base.readReg .sp) ∧ base.wordReadable (base.readReg .sp + 2) ∧
    user.wordReadable (user.readReg .sp) ∧ user.wordReadable (user.readReg .sp + 2) :=
  ⟨⟨rfl, rfl⟩, ⟨rfl, rfl⟩, ⟨rfl, rfl⟩, ⟨rfl, rfl⟩⟩

theorem witness_SvcTraps : base.frameWritable ∧ user.frameWritable := ⟨base_frame, user_frame⟩

theorem witness_HaltStopsTheMachine :
    base.flag.p = true ∧ user.flag.p = false ∧ (saves user .this).frameWritable ∧
    (saves user .this).params.privViolationPc = .this ∧ (saves user .next).frameWritable ∧
    (saves user .next).params.privViolationPc = .next ∧ ({ base with halted := true } : State).halted = true :=
  ⟨rfl, rfl, user_frame, rfl, user_frame, rfl, rfl⟩

/-- The state whose word accesses at odd addresses raise. -/
def strict (p : Config.SavedPc) : State :=
  saves { base with params := { base.params with misaligned := .memViolation } } p

/-- A frame that can be pushed, and an odd SSP whose push raises. -/
theorem witness_TrapEntryFrame :
    user.frameWritable ∧ (let s : State := { strict .any with ssp := 0xDFFF }
      s.mmuOn = false ∧ s.ssp.toNat % 2 = 1 ∧ s.params.misaligned = .memViolation) := ⟨user_frame, rfl, rfl, rfl⟩

/-- The handler state is the one trap entry leaves. -/
theorem witness_TrapThenRetiRestores :
    user.frameWritable ∧ ∃ t u : State, user.trapEntry 15 0x0402 = .next t ∧ u.flag.p = true ∧ u.ssp = t.ssp ∧ u.mmuOn = false ∧
      u.wordAt u.ssp = t.wordAt t.ssp ∧ u.wordAt (u.ssp + 2) = t.wordAt (t.ssp + 2) :=
  ⟨user_frame, _, _, rfl, rfl, rfl, rfl, rfl, rfl⟩

/-- FEh is an empty cell; D400h has a reserved field. -/
def undefinedAtPc (p : Config.SavedPc) : State := saves (words base 0x0100 [0xFE00]) p
def reservedAtPc : State := words base 0x0100 [0xD400]

theorem witness_WordsThatSpellNoInstruction :
    ((undefinedAtPc .this).quiet ∧ (undefinedAtPc .this).wordReadable (undefinedAtPc .this).pc ∧
      decode ((undefinedAtPc .this).wordAt (undefinedAtPc .this).pc) 0 = .undefined ∧ (undefinedAtPc .this).frameWritable ∧
      (undefinedAtPc .this).params.undefinedPc = .this ∧ (undefinedAtPc .next).params.undefinedPc = .next) ∧
    reservedAtPc.quiet ∧ reservedAtPc.wordReadable reservedAtPc.pc ∧
      decode (reservedAtPc.wordAt reservedAtPc.pc) 0 = .reserved :=
  ⟨⟨quiet_of rfl rfl rfl, ⟨rfl, rfl⟩, by decide, base_frame, rfl, rfl⟩, quiet_of rfl rfl rfl, ⟨rfl, rfl⟩, by decide⟩

/-- The word A6F1h (a jump always) or AE01h (a CALL) at pc, with JUMP_INDR given. -/
def openAtPc (w : Word) (j : Config.JumpIndr) : State :=
  { words base 0x0100 [w] with params := { base.params with jumpIndr := j } }

theorem witness_OpenOpBytesFollowParameter :
    (openAtPc 0xA6F1 .jump).quiet ∧ (openAtPc 0xA6F1 .jump).wordReadable (openAtPc 0xA6F1 .jump).pc ∧
    (openAtPc 0xA6F1 .jump).wordAt (openAtPc 0xA6F1 .jump).pc = (0xA6#8 ++ 0xF#4 ++ 0x1#4 : Word) ∧
    Cond.ofNibble 0xF = some .always ∧ (openAtPc 0xAE01 .jump).quiet ∧
    (openAtPc 0xAE01 .jump).wordReadable (openAtPc 0xAE01 .jump).pc ∧
    (openAtPc 0xAE01 .jump).wordAt (openAtPc 0xAE01 .jump).pc = (0xAE#8 ++ 0x0#4 ++ 0x1#4 : Word) ∧
    (openAtPc 0xAE01 .jump).wordWritable ((openAtPc 0xAE01 .jump).readReg .sp - 2) ∧
    (openAtPc 0xAE01 .jump).params.jumpIndr = .jump ∧ (openAtPc 0xAE01 .refuse).params.jumpIndr = .refuse ∧
    (openAtPc 0xAE01 .undefined).params.jumpIndr = .undefined :=
  ⟨quiet_of rfl rfl rfl, ⟨rfl, rfl⟩, by decide, rfl, quiet_of rfl rfl rfl, ⟨rfl, rfl⟩, by decide, writable rfl rfl rfl, rfl,
    rfl, rfl⟩

theorem witness_OddWordAccess :
    base.mmuOn = false ∧ (1 : Word).toNat % 2 = 1 ∧ (0xFFFF : Word).toNat % 2 = 1 ∧ base.params.misaligned = .refuse ∧
    ({ base with params := { base.params with misaligned := .ignoreBit0 } } : State).params.misaligned = .ignoreBit0 ∧
    ({ base with params := { base.params with misaligned := .memViolation } } : State).params.misaligned = .memViolation := by
  decide

/-- User mode with an odd USP, its word accesses at odd addresses raising. -/
def oddStack (p : Config.SavedPc) : State := { flags (strict p) 0 with usp := 0xBFFF }

/-- An operand at FFFFh; an odd SP. -/
theorem witness_MisalignedAccessTraps :
    ((strict .this).params.misaligned = .memViolation ∧ (strict .this).frameWritable ∧ isByteForm (.drct 0xFFFF) = false ∧
      ((strict .this).addr (.drct 0xFFFF)).toNat % 2 = 1 ∧ (EaOp.ld = .ld ∨ Reg.flag ≠ .flag) ∧
      (EaOp.add = .ld ∨ Reg.usp ≠ .flag) ∧ (strict .this).params.memViolationPc = .this ∧
      (strict .next).params.memViolationPc = .next ∧ (strict .next).frameWritable) ∧
    (oddStack .next).params.misaligned = .memViolation ∧ (oddStack .next).frameWritable ∧
    ((oddStack .next).readReg .sp).toNat % 2 = 1 ∧ (oddStack .next).namesSp .flag = false ∧
    callRow (.drct 0x0200) = some (.callDrct 0x0200) ∧ callRow (.index 0 .sp) = some (.callIndex .sp 0) :=
  ⟨⟨rfl, base_frame, rfl, rfl, .inl rfl, by decide, rfl, rfl, base_frame⟩, rfl, base_frame, rfl, rfl, rfl, rfl⟩

theorem witness_WordAndByteViews :
    (0xFFFE : Word).toNat % 2 = 0 ∧ (∃ t, base.writeWord 0xFFFE 0x1234 = .ok t) ∧
    ∃ t u, base.writeByte 0xFFFE 0x12 = .ok t ∧ t.writeByte (0xFFFE + 1) 0x34 = .ok u := ⟨rfl, ⟨_, rfl⟩, _, _, rfl, rfl⟩

/-- RET, a word alone; JMP, the first of two words; and a word stored after JMP. -/
theorem witness_StoreSeenByFetch :
    (0x0200 : Word).toNat % 2 = 0 ∧ (∃ t, base.writeWord 0x0200 0xD000 = .ok t) ∧ hasSecondWord 0xD000 = false ∧
    (∃ t, base.writeWord 0x0200 0xA0F0 = .ok t) ∧ hasSecondWord 0xA0F0 = true ∧
    (∃ t, (words base 0x0200 [0xA0F0]).writeWord (0x0200 + 2) 0x0300 = .ok t) ∧
    hasSecondWord ((words base 0x0200 [0xA0F0]).wordAt 0x0200) = true :=
  ⟨rfl, ⟨_, rfl⟩, by decide, ⟨_, rfl⟩, by decide, ⟨_, rfl⟩, by decide⟩

theorem witness_InterruptsMaskedByE :
    base.halted = false ∧ base.flag.e = false ∧ 0 < 10 ∧ 9 < 10 ∧ base.irqEnabled 0 = false ∧ base.irqEnabled 9 = false := by
  decide

theorem witness_InterruptTaken : timerRequest.frameWritable ∧ 9 < 10 ∧ 0 < 10 :=
  ⟨⟨writable rfl rfl rfl, writable rfl rfl rfl⟩, by decide, by decide⟩

theorem witness_InterruptOrInstruction : timerRequest.halted = false := by decide

/-- JMP 0200h at pc. -/
def jumpAtPc : State := words base 0x0100 [0xA0F0, 0x0200]

theorem witness_StepRunsDecodedInstruction :
    jumpAtPc.quiet ∧ jumpAtPc.wordReadable jumpAtPc.pc ∧
    decode (jumpAtPc.wordAt jumpAtPc.pc) (jumpAtPc.wordAt (jumpAtPc.pc + 2)) = .instr (.jmpDrct 0x0200) ∧
    Instr.wellFormed (.jmpDrct 0x0200) = true := ⟨quiet_of rfl rfl rfl, ⟨rfl, rfl⟩, by decide, rfl⟩

theorem witness_DecodeOfEncode : Instr.wellFormed (.ldFpRlt .flag (-16)) = true ∧ Instr.wellFormed (.ldImm4 .flag 7) = true := by
  decide

theorem witness_EncodeOfDecode :
    decode 0x0BF8 0 = .instr (.ldFpRlt .flag (-16)) ∧ decode 0xA0F0 0x0200 = .instr (.jmpDrct 0x0200) := by decide

/-- A NO at pc. -/
def noAtPc : State := words base 0x0100 [0x0000]

theorem noAtPc_inv : noAtPc.Inv := ⟨by decide, by decide, by decide, rfl, nofun⟩

theorem witness_ResetHasInvariant : noAtPc.Inv := noAtPc_inv

/-- The address E000h and FFFFh, with the ROM attached. -/
theorem witness_ResetValues : withRom.iplAttached = true ∧ 0xE000 ≤ (0xE000 : Word).toNat ∧ 0xE000 ≤ (0xFFFF : Word).toNat := by
  decide

theorem witness_StepKeepsInvariant : noAtPc.Inv ∧ ∃ t, step noAtPc = .next t := ⟨noAtPc_inv, _, rfl⟩

/-- A user-mode step that stays in user mode, and one that is a trap entry. -/
theorem witness_UserModeCannotRaisePrivilege :
    user.flag.p = false ∧ (∃ t, step (words user 0x0100 [0x0000]) = .next t) ∧ ∃ t, step (words user 0x0100 [0xF000]) = .next t :=
  ⟨rfl, ⟨_, rfl⟩, _, rfl⟩

end Sys2Proof.Tests
end

section
/-! The second word of an instruction: what the decoder reads of it, and the fetch at pc as one decoding. -/

namespace Sys2Proof

/-! ### What the second word can change in a decoding (30_encoding.md R91, R92) -/

/-- How the decodings of one first word with two second words compare: they are the same, or both are instructions, of a
row and a mode that have an operand word. -/
def SameOrOperand (operand : Prop) (d e : Decoded) : Prop :=
  d = e ∨ (operand ∧ (∃ i, d = .instr i) ∧ ∃ j, e = .instr j)

theorem SameOrOperand.refl (p : Prop) (d : Decoded) : SameOrOperand p d d := .inl rfl

/-- The fixed fields are checked before the operand word is looked at. -/
theorem SameOrOperand.guarded {p : Prop} (hp : p) (c : Prop) [Decidable c] (i j : Instr) :
    SameOrOperand p (if c then .instr i else .reserved) (if c then .instr j else .reserved) := by
  split
  · exact .inr ⟨hp, ⟨i, rfl⟩, j, rfl⟩
  · exact .refl ..

theorem Ea.ofMode_secondWord (mode : Nat) (rx : BitVec 4) (v w : Word) :
    Ea.ofMode mode rx v = Ea.ofMode mode rx w ∨
      (mode < 3 ∧ (∃ a, Ea.ofMode mode rx v = some a) ∧ ∃ b, Ea.ofMode mode rx w = some b) := by
  unfold Ea.ofMode
  split
  case h_2 => exact .inr ⟨by omega, ⟨_, rfl⟩, _, rfl⟩
  case h_1 | h_3 =>
    split
    · exact .inr ⟨by omega, ⟨_, rfl⟩, _, rfl⟩
    · exact .inl rfl
  all_goals exact .inl rfl

theorem decodeEa_secondWord (op : EaOp) (mode : Nat) (rd rx : BitVec 4) (v w : Word) :
    SameOrOperand (mode < 3) (decodeEa op mode rd rx v) (decodeEa op mode rd rx w) := by
  rcases Ea.ofMode_secondWord mode rx v w with h | ⟨hm, ⟨a, ha⟩, b, hb⟩
  · simp only [decodeEa, h]; exact .refl ..
  · simp only [decodeEa, ha, hb]; exact .inr ⟨hm, ⟨_, rfl⟩, _, rfl⟩

theorem decodeSt_drct (rd rx : BitVec 4) (w2 : Word) :
    decodeSt 0 rd rx w2 = if rx = 0 then .instr (.stDrct (Reg.ofNibble rd) w2) else .reserved := by
  by_cases hx : rx = 0
  · subst hx; rfl
  · simp only [decodeSt, Ea.ofMode, if_neg hx]

theorem decodeSt_secondWord (mode : Nat) (rd rx : BitVec 4) (v w : Word) :
    SameOrOperand (mode < 3) (decodeSt mode rd rx v) (decodeSt mode rd rx w) := by
  rcases mode with _ | _ | _ | n
  · rw [decodeSt_drct, decodeSt_drct]
    exact .guarded (by omega) ..
  · exact .inr ⟨by omega, ⟨_, rfl⟩, _, rfl⟩
  · exact .refl ..
  · rcases Ea.ofMode_secondWord (n + 3) rx v w with h | ⟨hm, -⟩
    · simp only [decodeSt, h]; exact .refl ..
    · omega

theorem decodeJump_secondWord (w1 : Word) (mode : Nat) (rd rx : BitVec 4) (v w : Word) :
    SameOrOperand (mode < 3) (decodeJump w1 mode rd rx v) (decodeJump w1 mode rd rx w) := by
  unfold decodeJump
  split
  · split
    · exact .guarded (by omega) ..
    · exact .refl ..
  · split
    · exact .inr ⟨by omega, ⟨_, rfl⟩, _, rfl⟩
    · exact .refl ..
  all_goals exact .refl ..

theorem decodeCall_secondWord (w1 : Word) (mode : Nat) (rd rx : BitVec 4) (v w : Word) :
    SameOrOperand (mode < 3) (decodeCall w1 mode rd rx v) (decodeCall w1 mode rd rx w) := by
  unfold decodeCall
  split
  · exact .guarded (by omega) ..
  · exact .guarded (by omega) ..
  all_goals exact .refl ..

theorem decodeIn_secondWord (mode : Nat) (rd rx : BitVec 4) (v w : Word) :
    SameOrOperand (mode < 3) (decodeIn mode rd rx v) (decodeIn mode rd rx w) := by
  unfold decodeIn
  split
  · exact .guarded (by omega) ..
  all_goals exact .refl ..

theorem decodeOut_secondWord (mode : Nat) (rd rx : BitVec 4) (v w : Word) :
    SameOrOperand (mode < 3) (decodeOut mode rd rx v) (decodeOut mode rd rx w) := by
  unfold decodeOut
  split
  · exact .guarded (by omega) ..
  all_goals exact .refl ..

/-- In a row that takes an operand. -/
theorem SameOrOperand.inRow {op5 mode : Nat} {d e : Decoded} (hr : takesEa op5 = true)
    (h : SameOrOperand (mode < 3) d e) : SameOrOperand (takesEa op5 = true ∧ mode < 3) d e :=
  h.imp_right fun ⟨hm, hd⟩ => ⟨⟨hr, hm⟩, hd⟩

theorem decodeFields_secondWord (w1 : Word) (op5 mode : Nat) (rd rx : BitVec 4) (v w : Word) :
    SameOrOperand (takesEa op5 = true ∧ mode < 3) (decodeFields w1 op5 mode rd rx v)
      (decodeFields w1 op5 mode rd rx w) := by
  unfold decodeFields
  split
  case h_3 => exact .inRow rfl (decodeSt_secondWord ..)
  case h_18 => exact .inRow rfl (decodeJump_secondWord ..)
  case h_19 => exact .inRow rfl (decodeCall_secondWord ..)
  case h_20 => exact .inRow rfl (decodeIn_secondWord ..)
  case h_21 => exact .inRow rfl (decodeOut_secondWord ..)
  case h_2 | h_4 | h_5 | h_6 | h_7 | h_8 | h_9 | h_10 | h_11 | h_12 | h_13 | h_14 | h_15 | h_16 | h_17 =>
    exact .inRow rfl (decodeEa_secondWord ..)
  all_goals exact .refl ..

theorem decode_secondWord (w1 v w : Word) :
    SameOrOperand (takesEa (op5Of w1) = true ∧ modeOf w1 < 3) (decode w1 v) (decode w1 w) :=
  decodeFields_secondWord ..

theorem hasSecondWord_of_instr {w1 : Word} {i : Instr} (h : decode w1 0 = .instr i) :
    hasSecondWord w1 = (takesEa (op5Of w1) && decide (modeOf w1 < 3)) := by
  unfold hasSecondWord
  rw [h]

/-- A first word that has no second word decodes alike before every word. -/
theorem decode_of_not_hasSecondWord {w1 : Word} (h : hasSecondWord w1 = false) (w2 : Word) :
    decode w1 w2 = decode w1 0 := by
  rcases decode_secondWord w1 w2 0 with heq | ⟨⟨hr, hm⟩, -, j, hj⟩
  · exact heq
  · rw [hasSecondWord_of_instr hj] at h
    simp [hr, hm] at h

end Sys2Proof

namespace Sys2Proof.Machine

/-! ### The fetch at an even pc (00_scope.md R12) -/

theorem State.wordReadable_add_two {s : State} {a : Word} (h : s.wordReadable a) : s.wordReadable (a + 2) := by
  obtain ⟨hmmu, heven⟩ := h
  exact ⟨hmmu, by bv_omega⟩

/-- The fetch decodes the two words at pc, whether or not it reads the second. -/
theorem State.fetch_readable {s : State} (h : s.wordReadable s.pc) :
    s.fetch = .ok (decode (s.wordAt s.pc) (s.wordAt (s.pc + 2))) := by
  simp only [State.fetch, State.readWord_readable h, State.readWord_readable (State.wordReadable_add_two h)]
  split
  · rfl
  · rename_i hone
    rw [decode_of_not_hasSecondWord (Bool.eq_false_of_not_eq_true hone) (s.wordAt (s.pc + 2))]

theorem State.runInstruction_of_fetch {s : State} {i : Instr} (h : s.fetch = .ok (.instr i)) :
    s.runInstruction = exec i s := by
  simp only [State.runInstruction, h]

/-- Settles O49: a quiet step is `runInstruction`, and at an even pc that runs what the two words there decode
to: where the fetch leaves the second unread, the decoder does not look at it. (The hypothesis of well-formedness is not used.) -/
theorem stepRunsDecodedInstruction : Obligations.StepRunsDecodedInstruction := by
  intro s i hquiet hpc hdecode _
  have hfetch : s.fetch = .ok (.instr i) := by rw [State.fetch_readable hpc, hdecode]
  rw [step_quiet hquiet, State.runInstruction_of_fetch hfetch]

end Sys2Proof.Machine
end

section
/-! Registers, FLAG and reset (10_state.md): what a register number denotes, FLAG's word bit by bit and as a number,
`FlagWrite`, and what a reset leaves. -/

namespace Sys2Proof

/-- The registers, in the order of their numbers (10_state.md R22). -/
theorem Reg.ofNibble_range : (List.range 16).map (fun n => Reg.ofNibble (BitVec.ofNat 4 n)) =
    [.gen .g0, .gen .g1, .gen .g2, .gen .g3, .gen .g4, .gen .g5, .gen .g6, .gen .g7, .gen .g8, .gen .g9, .gen .g10,
      .gen .g11, .gen .fp, .sp, .usp, .flag] := by decide

end Sys2Proof

namespace Sys2Proof.Machine

/-! ### What each register reads as (10_state.md R22, R24) -/

theorem State.readReg_gen (s : State) (g : Gr) : s.readReg (.gen g) = s.regs.get g := rfl

/-- SP is the one of the two stack pointers that FLAG.P selects. -/
theorem State.readReg_sp (s : State) : s.readReg .sp = if s.flag.p then s.ssp else s.usp := by
  cases hp : s.flag.p with
  | true => exact State.readReg_sp_privileged hp
  | false => exact State.readReg_sp_user hp

theorem State.readReg_usp (s : State) : s.readReg .usp = s.usp := rfl

theorem State.readReg_flag (s : State) : s.readReg .flag = s.flag.toWord := rfl

/-- Settles O55: the register numbers in order name the registers in order, and each register's read is known. -/
theorem registerNumbers : Obligations.RegisterNumbers := by
  intro s
  have hread : (List.range 16).map (fun n => s.readReg (Reg.ofNibble (BitVec.ofNat 4 n))) =
      ((List.range 16).map (fun n => Reg.ofNibble (BitVec.ofNat 4 n))).map s.readReg := by
    rw [List.map_map]; rfl
  rw [hread, Reg.ofNibble_range]
  simp only [List.map_cons, List.map_nil, State.readReg_gen, State.readReg_sp, State.readReg_usp, State.readReg_flag,
    Regs.get]

/-! ### FLAG as a word, and `FlagWrite` (10_state.md R26, R29) -/

/-- FLAG's word as the sum of its seven bits at their places. -/
theorem Flag.toWord_toNat (f : Flag) :
    f.toWord.toNat = f.e.toNat * 0x80 + f.p.toNat * 0x40 + f.i.toNat * 0x20 + f.v.toNat * 0x08 + f.c.toNat * 0x04 +
      f.s.toNat * 0x02 + f.z.toNat * 0x01 := by
  obtain ⟨e, p, i, v, c, s, z⟩ := f
  revert e p i v c s z
  decide

/-- Only the seven places of FLAG's bits can be set in its word. -/
theorem Flag.toWord_and_zeroBits (f : Flag) : f.toWord &&& 0xFF10 = 0 := by
  apply BitVec.eq_of_getLsbD_eq
  intro j hj
  rw [BitVec.getLsbD_and, Flag.toWord_getLsbD]
  interval_cases j <;> simp

/-- Reading the seven bits of a word and writing them out again keeps those bits and clears the others. -/
theorem Flag.toWord_ofWord (w : Word) : (Flag.ofWord w).toWord = w &&& 0x00EF := by
  apply BitVec.eq_of_getLsbD_eq
  intro j hj
  rw [BitVec.getLsbD_and, Flag.toWord_getLsbD]
  interval_cases j <;> simp [Flag.ofWord]

theorem Flag.write_privileged (f : Flag) (w : Word) (h : f.p = true) : f.write w = Flag.ofWord w := by
  simp [Flag.write, h]

/-- In user mode bits 7 to 5 come from FLAG as it is and bits 3 to 0 from the word written. -/
theorem Flag.toWord_write_user (f : Flag) (w : Word) (h : f.p = false) :
    (f.write w).toWord = (f.toWord &&& 0x00E0) ||| (w &&& 0x000F) := by
  apply BitVec.eq_of_getLsbD_eq
  intro j hj
  rw [BitVec.getLsbD_or, BitVec.getLsbD_and, BitVec.getLsbD_and, Flag.toWord_getLsbD, Flag.toWord_getLsbD]
  interval_cases j <;> simp [Flag.write, Flag.ofWord, h]

/-- Settles O56: FLAG's word as a number, its zero bits, and `FlagWrite` by the mode. -/
theorem flagWordAndFlagWrite : Obligations.FlagWordAndFlagWrite := by
  intro f v
  refine ⟨f.toWord_toNat, f.toWord_and_zeroBits, ?_⟩
  cases hp : f.p with
  | true => rw [Flag.write_privileged f v hp, Flag.toWord_ofWord]; rfl
  | false => exact Flag.toWord_write_user f v hp

/-! ### What a reset leaves (10_state.md R35, 70_reset_and_hazards.md R400) -/

@[simp] theorem State.afterReset_relocation (s : State) : s.afterReset.relocation = false := rfl
@[simp] theorem State.afterReset_paging (s : State) : s.afterReset.paging = false := rfl

/-- After a reset of a running machine every device register has its reset value but RN4020-RAM, which is kept
(60_exceptions.md R355). -/
theorem State.afterReset_ioReg (s : State) (a : Nat) :
    s.afterReset.ioReg a = if a = 0x2F then s.rn4020Ram else ioResetByte a :=
  State.ioReg_setIoReg _ 0x2F a s.rn4020Ram (by simp [ioWf, Memory.wf, State.resetWith])

/-- What is read of the IPL region while the ROM is attached (20_memory.md R61). -/
theorem State.byteAt_ipl {s : State} {a : Word} (hattached : s.iplAttached = true) (ha : 0xE000 ≤ a.toNat) :
    s.byteAt a = (Memory.get? s.rom a.toNat).getD (Config.iplImage a.toNat) := by
  simp [State.byteAt, State.iplCovers, hattached, iplBase, ha]

/-- Settles O57: each valued row of the reset table, for a first reset and for a reset of a running machine. The IPL
region is read from the ROM, which is the plain image at a first reset and is kept by a later one. -/
theorem resetValues : Obligations.ResetValues := by
  refine ⟨fun p => ⟨?leavesFirst, rfl, fun a ha => State.byteAt_ipl rfl ha⟩, rfl, rfl,
    fun s => ⟨?leavesLater, State.afterReset_params s, ?ram, fun hattached a ha => ?rom⟩⟩
  case leavesFirst => exact ⟨rfl, rfl, rfl, rfl, rfl, rfl, rfl, rfl, rfl, rfl⟩
  case leavesLater =>
    refine ⟨?_, ?_, ?_, ?_, ?_, ?_, ?_, ?_, ?_, s.afterReset_ioReg 0x2D⟩ <;> simp [Flag.reset]
  case ram => exact s.afterReset_ioReg 0x2F
  case rom =>
    rw [State.byteAt_ipl s.afterReset_iplAttached ha, State.byteAt_ipl hattached ha, State.afterReset_rom]

end Sys2Proof.Machine
end

section
/-! Word and byte accesses (20_memory.md R50 to R54): an odd word address by MISALIGNED_WORD, the two views of memory,
and what a fetch finds after a store. -/

namespace Sys2Proof.Machine

/-! ### The address of a word access (20_memory.md R52) -/

theorem State.readWord_congr {s : State} {a b : Word} (h : s.admitWord a = s.admitWord b) :
    s.readWord a = s.readWord b := by
  simp only [State.readWord, h]

theorem State.writeWord_congr {s : State} {a b : Word} (v : Word) (h : s.admitWord a = s.admitWord b) :
    s.writeWord a v = s.writeWord b v := by
  simp only [State.writeWord, h]

theorem State.readWord_error {s : State} {a : Word} {e : Stop} (h : s.admitWord a = .error e) :
    s.readWord a = .error e := by
  simp only [State.readWord, h]

theorem State.writeWord_error {s : State} {a : Word} {e : Stop} (v : Word) (h : s.admitWord a = .error e) :
    s.writeWord a v = .error e := by
  simp only [State.writeWord, h]

theorem and_FFFE_even (a : Word) : (a &&& 0xFFFE).toNat % 2 = 0 := by
  have hbit : (a &&& 0xFFFE).getLsbD 0 = false := by simp
  rw [BitVec.getLsbD, Nat.testBit_zero, decide_eq_false_iff_not] at hbit
  omega

section
variable {s : State} {a : Word} (hmmu : s.mmuOn = false) (hodd : a.toNat % 2 = 1)
include hmmu hodd

theorem State.admitWord_odd_refuse (hp : s.params.misaligned = .refuse) :
    s.admitWord a = .error (.refuse (.misaligned a)) := by
  simp [State.admitWord, hmmu, hodd, hp]

theorem State.admitWord_odd_ignoreBit0 (hp : s.params.misaligned = .ignoreBit0) :
    s.admitWord a = .ok (a &&& 0xFFFE) := by
  simp [State.admitWord, hmmu, hodd, hp]

theorem State.admitWord_odd_memViolation (hp : s.params.misaligned = .memViolation) :
    s.admitWord a = .error (.raise .memViolation) := by
  simp [State.admitWord, hmmu, hodd, hp]

end

/-- Settles O42: MISALIGNED_WORD decides the address both accesses use, before anything else is looked at. -/
theorem oddWordAccess : Obligations.OddWordAccess := by
  intro s a v hmmu hodd
  refine ⟨fun hp => ?refuse, fun hp => ?ignoreBit0, fun hp => ?memViolation⟩
  case refuse =>
    have hadmit := State.admitWord_odd_refuse hmmu hodd hp
    exact ⟨State.readWord_error hadmit, State.writeWord_error v hadmit⟩
  case ignoreBit0 =>
    have hadmit : s.admitWord a = s.admitWord (a &&& 0xFFFE) := by
      rw [State.admitWord_odd_ignoreBit0 hmmu hodd hp, State.admitWord_readable ⟨hmmu, and_FFFE_even a⟩]
    exact ⟨State.readWord_congr hadmit, State.writeWord_congr v hadmit⟩
  case memViolation =>
    have hadmit := State.admitWord_odd_memViolation hmmu hodd hp
    exact ⟨State.readWord_error hadmit, State.writeWord_error v hadmit⟩

/-! ### What is read after a store at an even address (20_memory.md R51, R83) -/

/-- A word stored at an even address is stored there, and the memory stays readable. -/
theorem State.writeWord_even {s t : State} {a v : Word} (heven : a.toNat % 2 = 0) (h : s.writeWord a v = .ok t) :
    t.mmuOn = false ∧ s.iplCovers a = false ∧ t = s.storeWord a v := by
  obtain ⟨hmmu, b, -, hb, hcovers, rfl⟩ := State.writeWord_ok h
  obtain rfl := hb heven
  exact ⟨hmmu, hcovers, rfl⟩

/-- Settles O44: a store of a word read as two bytes, and two stores of a byte read as a word. -/
theorem wordAndByteViews : Obligations.WordAndByteViews := by
  intro s t a v heven
  refine ⟨fun hword => ?bytesOfWord, fun u x y hx hy => ?wordOfBytes⟩
  case bytesOfWord =>
    obtain ⟨hmmu, hcovers, rfl⟩ := State.writeWord_even heven hword
    rw [State.readByte_mmuOff _ hmmu, State.readByte_mmuOff _ hmmu, State.byteAt_storeWord s a _ v heven hcovers,
      State.byteAt_storeWord s a _ v heven hcovers, if_neg (word_succ_ne a).symm, if_pos rfl, if_pos rfl]
    exact ⟨rfl, rfl⟩
  case wordOfBytes =>
    obtain ⟨-, hcovers, rfl⟩ := State.writeByte_ok hx
    obtain ⟨hmmu, hcovers', rfl⟩ := State.writeByte_ok hy
    have hread : ((s.storeByte a x).storeByte (a + 1) y).wordAt a = wordOfBytes x y := by
      rw [State.wordAt, State.byteAt_storeByte _ _ _ _ hcovers', State.byteAt_storeByte _ _ _ _ hcovers',
        State.byteAt_storeByte _ _ _ _ hcovers, if_neg (word_succ_ne a).symm, if_pos rfl, if_pos rfl]
    rw [State.readWord_readable (by exact ⟨hmmu, heven⟩), hread]
    rfl

theorem word_add_two_ne (a : Word) : a + 2 ≠ a := by bv_omega

/-- The fetch at an even address, wherever pc was before. -/
theorem State.fetch_goto_even {t : State} {a : Word} (hmmu : t.mmuOn = false) (heven : a.toNat % 2 = 0) :
    (t.goto a).fetch = .ok (decode (t.wordAt a) (t.wordAt (a + 2))) :=
  State.fetch_readable (s := t.goto a) ⟨hmmu, heven⟩

/-- Settles O45: the fetch decodes the two words at pc, and the one stored is the first or the second of them. -/
theorem storeSeenByFetch : Obligations.StoreSeenByFetch := by
  intro s t a v heven
  have heven2 : (a + 2).toNat % 2 = 0 := by bv_omega
  refine ⟨fun hfirst => ?first, fun hsecond _ => ?second⟩
  case first =>
    obtain ⟨hmmu, hcovers, rfl⟩ := State.writeWord_even heven hfirst
    have hfetch := State.fetch_goto_even hmmu heven
    rw [State.wordAt_storeWord s a v heven hcovers,
      State.wordAt_storeWord_ne s a (a + 2) v heven heven2 (word_add_two_ne a) hcovers] at hfetch
    exact ⟨fun hone => by rw [hfetch, decode_of_not_hasSecondWord hone], fun _ => hfetch⟩
  case second =>
    obtain ⟨hmmu, hcovers, rfl⟩ := State.writeWord_even heven2 hsecond
    rw [State.fetch_goto_even hmmu heven, State.wordAt_storeWord s (a + 2) v heven2 hcovers,
      State.wordAt_storeWord_ne s (a + 2) a v heven2 heven (word_add_two_ne a).symm hcovers]

end Sys2Proof.Machine
end

section
/-! The invariant of the machine: it holds after a reset, and every operation of a step keeps it and the parameters. -/

namespace Sys2Proof.Machine

/-! ### What a reset establishes (10_state.md R35, 70_reset_and_hazards.md R400) -/

theorem Memory.wf_nil (limit : Nat) : Memory.wf limit [] := by simp [Memory.wf]

theorem ioWf_nil : ioWf [] := ⟨Memory.wf_nil 256, by simp⟩

/-- Settles O58: a reset empties the RAM and the device registers but for RN4020-RAM, and keeps the ROM. -/
theorem resetHasInvariant : Obligations.ResetHasInvariant := by
  refine ⟨⟨Memory.wf_nil _, Memory.wf_nil _, ioWf_nil, rfl, fun _ a ha => ?_⟩,
    fun s hs => ⟨Memory.wf_nil _, hs.rom_wf, ioWf_setIoReg _ 0x2F _ (by decide) ioWf_nil, rfl, fun _ a ha => ?_⟩⟩
  all_goals cases ha

/-! ### What an operation keeps -/

/-- An operation that takes `s` to `t` keeps the invariant and the parameters. -/
structure State.Keeps (s t : State) : Prop where
  inv : s.Inv → t.Inv
  params : t.params = s.params

theorem State.Keeps.refl (s : State) : s.Keeps s := ⟨id, rfl⟩

theorem State.Keeps.trans {s t u : State} (hst : s.Keeps t) (htu : t.Keeps u) : s.Keeps u :=
  ⟨fun h => htu.inv (hst.inv h), htu.params.trans hst.params⟩

/-- The fields that the invariant speaks of, and the parameters. -/
def State.checkedFields (s : State) : Memory × Memory × Memory × Bool × Bool × Bool × Config.Params :=
  (s.mem, s.rom, s.io, s.iplAttached, s.relocation, s.paging, s.params)

/-- What writes none of those fields keeps the invariant. -/
theorem State.Keeps.of_checkedFields {s t : State} (h : t.checkedFields = s.checkedFields) : s.Keeps t := by
  simp only [State.checkedFields, Prod.mk.injEq] at h
  obtain ⟨hmem, hrom, hio, hattached, hrelocation, hpaging, hparams⟩ := h
  refine ⟨fun hs => ⟨hmem ▸ hs.mem_wf, hrom ▸ hs.rom_wf, hio ▸ hs.io_wf, ?_, ?_⟩, hparams⟩
  · rw [State.mmuOn, hrelocation, hpaging]; exact hs.mmu_off
  · rw [hattached, hmem]; exact hs.hidden_ram

theorem State.Keeps.after {s t u : State} (htu : t.Keeps u) (hst : t.checkedFields = s.checkedFields) : s.Keeps u :=
  (State.Keeps.of_checkedFields hst).trans htu

theorem State.Keeps.of_systemKept {s t : State} (hmem : t.mem = s.mem) (h : SystemKept s t) : s.Keeps t :=
  .of_checkedFields (by
    simp only [State.checkedFields, hmem, h.rom, h.io, h.iplAttached, h.relocation, h.paging, h.params])

theorem State.Keeps.goto {s t : State} (h : s.Keeps t) (a : Word) : s.Keeps (t.goto a) :=
  h.trans (.of_checkedFields rfl)

theorem State.Keeps.writeReg {s t : State} (h : s.Keeps t) (r : Reg) (v : Word) : s.Keeps (t.writeReg r v) :=
  h.trans (.of_checkedFields (by simp [State.checkedFields]))

/-! ### Stores (20_memory.md R61) -/

theorem State.lt_iplBase_of_not_covers {s : State} {a : Word} (h : s.iplCovers a = false)
    (hattached : s.iplAttached = true) : a.toNat < iplBase := by
  simpa [State.iplCovers, hattached] using h

/-- A store outside the attached IPL region: the only address it can list anew is one that the ROM does not hide. -/
theorem State.Keeps.storeByte {s : State} {a : Word} (v : Byte) (h : s.iplCovers a = false) :
    s.Keeps (s.storeByte a v) := by
  refine ⟨fun hs => ⟨Memory.wf_put _ _ _ _ a.isLt hs.mem_wf, hs.rom_wf, hs.io_wf, hs.mmu_off, ?_⟩, rfl⟩
  intro hattached b hb
  obtain ⟨c, hc, rfl⟩ := List.mem_map.1 hb
  rcases Memory.mem_put _ _ _ _ hc with rfl | hold
  · exact State.lt_iplBase_of_not_covers h hattached
  · exact hs.hidden_ram hattached _ (List.mem_map_of_mem hold)

theorem State.Keeps.storeWord {s : State} {a : Word} (v : Word) (heven : a.toNat % 2 = 0)
    (h : s.iplCovers a = false) : s.Keeps (s.storeWord a v) := by
  have hsucc : (s.storeByte a (highByte v)).iplCovers (a + 1) = false := (s.iplCovers_succ a heven).trans h
  exact (State.Keeps.storeByte _ h).trans (.storeByte _ hsucc)

theorem State.Keeps.of_storeValue {s t : State} {m : MemEa} {v : Word} (h : s.storeValue m v = .ok t) :
    s.Keeps t := by
  obtain ⟨-, ⟨hcovers, rfl⟩ | ⟨b, heven, hcovers, rfl⟩⟩ := State.storeValue_ok h
  · exact .storeByte _ hcovers
  · exact .storeWord v heven hcovers

/-! ### The stack, traps and the return from one (45_stack_return.md R240, R246, 60_exceptions.md R320) -/

theorem State.Keeps.of_push {s t : State} {v : Word} (h : s.push v = .ok t) : s.Keeps t := by
  obtain ⟨-, b, heven, -, hcovers, rfl⟩ := State.push_ok h
  exact (State.Keeps.storeWord v heven hcovers).writeReg _ _

theorem State.Keeps.of_pop {s t : State} {v : Word} (h : s.pop = .ok (v, t)) : s.Keeps t := by
  obtain ⟨-, -, rfl⟩ := State.pop_ok h
  exact (State.Keeps.refl s).writeReg _ _

theorem State.Keeps.of_trapFrame {s t : State} {n : Nat} {pc : Word} (h : s.trapFrame n pc = .ok t) : s.Keeps t := by
  obtain ⟨-, a, b, ha, hb, hacovers, hbcovers, -, rfl⟩ := State.trapFrame_ok h
  have hframe : s.Keeps ((s.storeWord a pc).storeWord b s.flag.toWord) :=
    (State.Keeps.storeWord pc ha hacovers).trans (.storeWord _ hb hbcovers)
  exact hframe.trans (.of_checkedFields rfl)

theorem State.Keeps.of_raise {s t : State} {x : Exn} {npc : Word} (h : s.raise x npc = .next t) : s.Keeps t := by
  obtain ⟨c, p, k, pc, hframe⟩ := State.raise_next h
  exact (State.Keeps.of_trapFrame hframe).after rfl

theorem State.Keeps.of_trapReturn {s t : State} (h : s.trapReturn = .ok t) : s.Keeps t := by
  obtain ⟨-, f, p, rfl⟩ := State.trapReturn_ok h
  exact (((State.Keeps.refl s).writeReg _ _).writeReg _ _).goto _

/-! ### The I/O space (20_memory.md R57, R61, R72) -/

/-- A byte written to a port: only a device register, the detach of the ROM and port A2h touch what the invariant speaks
of, and port A2h completes with relocation and paging off only. -/
theorem State.Keeps.of_portWrite {s t : State} {a : Nat} {v : Byte} (h : s.portWrite a v = .ok t) : s.Keeps t := by
  rcases State.portWrite_ok h with rfl | ⟨ha, rfl⟩ | ⟨n, x, rfl⟩ | rfl | rfl | rfl | ⟨x, rfl⟩ | ⟨x, rfl⟩
  · exact .refl _
  · exact ⟨fun hs => ⟨hs.mem_wf, hs.rom_wf, ioWf_setIoReg s a v ha hs.io_wf, hs.mmu_off, hs.hidden_ram⟩, rfl⟩
  · exact .of_checkedFields rfl
  · exact .of_checkedFields rfl
  · exact ⟨fun hs => ⟨hs.mem_wf, hs.rom_wf, hs.io_wf, hs.mmu_off, fun hattached => nomatch hattached⟩, rfl⟩
  · exact ⟨fun hs => ⟨hs.mem_wf, hs.rom_wf, hs.io_wf, rfl, hs.hidden_ram⟩, rfl⟩
  · exact .of_checkedFields rfl
  · exact .of_checkedFields rfl

theorem State.Keeps.of_ioWrite {s t : State} {b : Bool} {a v : Word} (h : s.ioWrite b a v = .ok t) : s.Keeps t := by
  rcases State.ioWrite_ok h with ⟨u, e, hu, rfl⟩ | ⟨u, w, e, hu, hw, rfl⟩
  · exact (State.Keeps.of_portWrite hu).trans (.of_checkedFields rfl)
  · exact ((State.Keeps.of_portWrite hu).trans (.of_portWrite hw)).trans (.of_checkedFields rfl)

theorem State.Keeps.ioReadDone (s : State) (b : Bool) (a v : Word) : s.Keeps (s.ioReadDone b a v) := by
  obtain ⟨c, p, h⟩ := s.ioReadDone_eq b a v
  rw [h]
  exact .of_checkedFields rfl

/-! ### The instructions -/

theorem ActFrame.keeps {rd : Reg} {s t : State} (h : ActFrame rd s t) : s.Keeps t :=
  .of_systemKept h.mem h.system.1

theorem State.Keeps.of_load {s t : State} {rd : Reg} {ea : Ea} (h : s.load rd ea = .next t) : s.Keeps t := by
  obtain ⟨v, -, rfl⟩ | ⟨x, hx⟩ := State.load_next h
  · exact ((State.Keeps.refl s).writeReg rd v).goto _
  · exact .of_raise hx

theorem State.Keeps.of_divide {s t : State} {rd : Reg} {ea : Ea} {f : Word → Word → Word}
    (h : s.divide rd ea f = .next t) : s.Keeps t := by
  obtain ⟨hrd, ⟨b, -, -, rfl⟩ | hzero | ⟨x, hx⟩⟩ := State.divide_next h
  · exact (ActFrame.resultDrawn rd s _ hrd).keeps.goto _
  · exact (State.Keeps.of_raise hzero).after rfl
  · exact .of_raise hx

theorem State.Keeps.of_ea {s t : State} {op : EaOp} {rd : Reg} {ea : Ea}
    (h : exec (Instr.ofEa op rd ea) s = .next t) : s.Keeps t := by
  by_cases hld : op = .ld
  · rw [hld, exec_ld] at h; exact .of_load h
  by_cases hdiv : op = .div
  · rw [hdiv, exec_div] at h; exact .of_divide h
  by_cases hmod : op = .mod
  · rw [hmod, exec_mod] at h; exact .of_divide h
  rw [exec_operate op rd ea s ⟨hld, hdiv, hmod⟩] at h
  obtain ⟨hrd, ⟨b, -, rfl⟩ | ⟨x, hx⟩⟩ := State.operate_next h
  · exact (ActFrame.of_act op rd s _ b hrd).keeps.goto _
  · exact .of_raise hx

theorem State.Keeps.of_jump {s t : State} {k : Cond} {m : MemEa} (h : s.jump k m = .next t) : s.Keeps t := by
  cases h
  exact (State.Keeps.refl s).goto _

theorem State.Keeps.of_call {s t : State} {m : MemEa} (h : s.call m = .next t) : s.Keeps t := by
  obtain ⟨u, hu, rfl⟩ | ⟨x, hx⟩ := State.call_next h
  · exact (State.Keeps.of_push hu).goto _
  · exact .of_raise hx

/-- Every instruction keeps the invariant and the parameters: shape by shape, its own writes or the exception it
takes. -/
theorem exec_keeps (i : Instr) {s t : State} (h : exec i s = .next t) : s.Keeps t := by
  revert h
  induction i using Instr.byShape with
  | hno => rintro ⟨⟩; exact (State.Keeps.refl s).goto _
  | hea op rd ea => exact State.Keeps.of_ea
  | hst rd m =>
    intro h
    rw [exec_st] at h
    obtain ⟨u, hu, rfl⟩ | ⟨x, hx⟩ := State.store_next h
    · exact (State.Keeps.of_storeValue hu).goto _
    · exact .of_raise hx
  | hjd k dsp => intro h; rw [exec_jumpDrct] at h; exact .of_jump h
  | hji k rx dsp => intro h; rw [exec_jumpIndex] at h; exact .of_jump h
  | hcall m i hi => intro h; rw [exec_call s hi] at h; exact .of_call h
  | hin rd m i hi =>
    intro h
    rw [exec_in s hi] at h
    obtain ⟨-, -, v, -, rfl⟩ | ⟨x, hx⟩ := State.input_next h
    · exact ((State.Keeps.ioReadDone s _ _ v).writeReg rd v).goto _
    · exact .of_raise hx
  | hout rd m i hi =>
    intro h
    rw [exec_out s hi] at h
    obtain ⟨-, u, hu, rfl⟩ | ⟨x, hx⟩ := State.output_next h
    · exact (State.Keeps.of_ioWrite hu).goto _
    · exact .of_raise hx
  | hpush rd =>
    intro h
    obtain ⟨-, ⟨u, hu, rfl⟩ | ⟨x, hx⟩⟩ := execPush_next h
    · exact (State.Keeps.of_push hu).goto _
    · exact .of_raise hx
  | hpop rd =>
    intro h
    obtain ⟨-, ⟨v, u, hu, rfl⟩ | ⟨x, hx⟩⟩ := execPop_next h
    · exact ((State.Keeps.of_pop hu).writeReg rd v).goto _
    · exact .of_raise hx
  | hret =>
    intro h
    obtain ⟨v, u, hu, rfl⟩ | ⟨x, hx⟩ := execRet_next h
    · exact (State.Keeps.of_pop hu).goto _
    · exact .of_raise hx
  | hreti =>
    intro h
    obtain hu | ⟨x, hx⟩ := execReti_next h
    · exact .of_trapReturn hu
    · exact .of_raise hx
  | hsvc => exact State.Keeps.of_raise (x := .svc)
  | hhalt =>
    intro h
    obtain ⟨-, rfl⟩ | hx := execHalt_next h
    · exact .of_checkedFields rfl
    · exact .of_raise hx

/-! ### The step (00_scope.md R12) -/

theorem State.Keeps.of_runInstruction {s t : State} (h : s.runInstruction = .next t) : s.Keeps t := by
  obtain ⟨i, -, hi⟩ | ⟨x, hx⟩ | ⟨k, m, hjump⟩ | ⟨m, hcall⟩ := State.runInstruction_next h
  · exact exec_keeps i hi
  · exact .of_raise hx
  · exact .of_jump hjump
  · exact .of_call hcall

/-- Settles O59: the boundary changes only the requests and the draws, and then a trap is entered or an instruction
runs. -/
theorem stepKeepsInvariant : Obligations.StepKeepsInvariant := by
  intro s t hs h
  have hkeeps : s.Keeps t := by
    obtain ⟨-, rfl⟩ | ⟨p, k, ⟨n, hframe⟩ | hrun⟩ := step_next h
    · exact .refl _
    · exact (State.Keeps.of_trapFrame hframe).after rfl
    · exact (State.Keeps.of_runInstruction hrun).after rfl
  exact ⟨hkeeps.inv hs, hkeeps.params⟩

end Sys2Proof.Machine
end

section
/-! OUT and the port block of the MMU (20_memory.md R57, R61, R70 to R72; 44_in_out.md R230, R233): which bytes an OUT
writes, what the block holds after them, the two refusals of A0h and A2h, and the refused I/O addresses. -/

namespace Sys2Proof.Machine

/-! ### The checks of IN and OUT (44_in_out.md R230) -/

theorem State.ioAllowed_of_flag {s : State} (h : s.flag.p = true ∨ s.flag.i = true) : s.ioAllowed = true := by
  simpa [State.ioAllowed] using h

theorem ioAddressStop_of_ioAccess {m : MemEa} {a : Word} (h : ioAccess m a) :
    ioAddressStop (isByteForm m) a = none := by
  obtain ⟨hrange, heven⟩ := h
  cases hm : isByteForm m with
  | true => simp [ioAddressStop, hrange]
  | false => simp [ioAddressStop, hrange, heven hm]

theorem ioAddressStop_of_range {b : Bool} {a : Word} (h : 0xFF < a.toNat) :
    ioAddressStop b a = some (.refuse (.ioAddress a)) := by
  simp [ioAddressStop, h]

theorem ioAddressStop_of_oddWord {a : Word} (hrange : a.toNat ≤ 0xFF) (hodd : a.toNat % 2 = 1) :
    ioAddressStop false a = some (.refuse (.ioOddWord a)) := by
  simp [ioAddressStop, hrange, hodd]

theorem State.input_refused {s : State} {rd : Reg} {m : MemEa} {r : Refusal} (hallowed : s.ioAllowed = true)
    (h : ioAddressStop (isByteForm m) (s.addr m) = some (.refuse r)) : s.input rd m = .refused r := by
  simp [State.input, hallowed, h, State.conclude]

theorem State.output_refused {s : State} {rd : Reg} {m : MemEa} {r : Refusal} (hallowed : s.ioAllowed = true)
    (h : ioAddressStop (isByteForm m) (s.addr m) = some (.refuse r)) : s.output rd m = .refused r := by
  simp [State.output, hallowed, h, State.conclude]

/-- Settles O29: IN and OUT both stop where the check of the address stops them. -/
theorem ioAddressStops : Obligations.IoAddressStops := by
  intro rd m i s hrow hflag
  have hallowed := State.ioAllowed_of_flag hflag
  have hexec : ∀ r, ioAddressStop (isByteForm m) (s.addr m) = some (.refuse r) → exec i s = .refused r := by
    intro r hstop
    rcases hrow with hin | hout
    · rw [exec_in s hin, State.input_refused hallowed hstop]
    · rw [exec_out s hout, State.output_refused hallowed hstop]
  refine ⟨fun hrange => hexec _ (ioAddressStop_of_range hrange), fun hrange hword hodd => hexec _ ?_⟩
  rw [hword, ioAddressStop_of_oddWord hrange hodd]

/-! ### The bytes of an OUT (20_memory.md R50, R54; 44_in_out.md R233) -/

/-- A write of one byte at one port. -/
def oneByte (p : Nat) (x : Byte) (q : Nat) : Option Byte := if q = p then some x else none

theorem oneByte_of_ne {p q : Nat} (x : Byte) (h : q ≠ p) : oneByte p x q = none := if_neg h

theorem oneByte_eq_none_iff {p q : Nat} {x : Byte} : oneByte p x q = none ↔ q ≠ p := by simp [oneByte]

theorem accessByte_byte {m : MemEa} (hm : isByteForm m = true) (a v : Word) :
    accessByte m a v = oneByte a.toNat (lowByte v) := by
  funext q
  simp only [accessByte, hm, if_true, oneByte, lowByte]

/-- A word moves its upper byte at its address and its lower byte at the next. -/
theorem accessByte_word {m : MemEa} (hm : isByteForm m = false) (a v : Word) :
    accessByte m a v = fun q => (oneByte (a.toNat + 1) (lowByte v) q).or (oneByte a.toNat (highByte v) q) := by
  funext q
  by_cases hhigh : q = a.toNat
  · simp [accessByte, hm, hhigh, oneByte, highByte]
  · by_cases hlow : q = a.toNat + 1 <;> simp [accessByte, hm, hhigh, hlow, oneByte, lowByte]

section
variable {s t u : State} {m : MemEa} {a v : Word}

theorem State.ioWrite_byte (hm : isByteForm m = true) (h : s.portWrite a.toNat (lowByte v) = .ok t) :
    s.ioWrite (isByteForm m) a v = .ok (t.record (outEvent m a v)) := by
  simp only [State.ioWrite, outEvent, hm, h, if_true]
  rfl

theorem State.ioWrite_byte_error {e : Stop} (hm : isByteForm m = true)
    (h : s.portWrite a.toNat (lowByte v) = .error e) : s.ioWrite (isByteForm m) a v = .error e := by
  simp only [State.ioWrite, hm, h, if_true]

theorem State.ioWrite_word (hm : isByteForm m = false) (hhigh : s.portWrite a.toNat (highByte v) = .ok t)
    (hlow : t.portWrite (a.toNat + 1) (lowByte v) = .ok u) :
    s.ioWrite (isByteForm m) a v = .ok (u.record (outEvent m a v)) := by
  simp only [State.ioWrite, outEvent, hm, hhigh, hlow, Bool.false_eq_true, if_false]

theorem State.ioWrite_word_error {e : Stop} (hm : isByteForm m = false)
    (hhigh : s.portWrite a.toNat (highByte v) = .ok t) (hlow : t.portWrite (a.toNat + 1) (lowByte v) = .error e) :
    s.ioWrite (isByteForm m) a v = .error e := by
  simp only [State.ioWrite, hm, hhigh, hlow, Bool.false_eq_true, if_false]

end

section
variable {s t : State} {rd : Reg} {m : MemEa} {i : Instr} (hrow : outRow rd m = some i) (hadmits : s.ioAdmits m)
include hrow hadmits

theorem exec_out_ok (h : s.ioWrite (isByteForm m) (s.addr m) (s.readReg rd) = .ok t) :
    exec i s = .next (t.goto (s.npcMem m)) := by
  obtain ⟨hflag, haccess⟩ := hadmits
  rw [exec_out s hrow]
  simp [State.output, State.ioAllowed_of_flag hflag, ioAddressStop_of_ioAccess haccess, h]

theorem exec_out_refused {r : Refusal}
    (h : s.ioWrite (isByteForm m) (s.addr m) (s.readReg rd) = .error (.refuse r)) : exec i s = .refused r := by
  obtain ⟨hflag, haccess⟩ := hadmits
  rw [exec_out s hrow]
  simp [State.output, State.ioAllowed_of_flag hflag, ioAddressStop_of_ioAccess haccess, h, State.conclude]

end

/-! ### A register in the odd byte of a port whose even byte is "00H" -/

theorem State.portWrite_zero {s : State} {p : Nat} (h : portByte p = .zero) (x : Byte) : s.portWrite p x = .ok s := by
  simp only [State.portWrite, h]

/-- The form of an access that moves a byte at an odd port: that byte alone, or a word from the even byte below. -/
theorem accessByte_odd {m : MemEa} {a v : Word} {p : Nat} {x : Byte} (hodd : p % 2 = 1) (haccess : ioAccess m a)
    (hx : accessByte m a v p = some x) :
    x = lowByte v ∧ (isByteForm m = true ∧ a.toNat = p ∨ isByteForm m = false ∧ a.toNat + 1 = p) := by
  obtain ⟨-, heven⟩ := haccess
  cases hm : isByteForm m with
  | true =>
    rw [accessByte_byte hm] at hx
    simp only [oneByte, Option.ite_none_right_eq_some, Option.some.injEq] at hx
    obtain ⟨hp, hv⟩ := hx
    exact ⟨hv.symm, .inl ⟨rfl, hp.symm⟩⟩
  | false =>
    have hhigh : p ≠ a.toNat := by have := heven hm; omega
    simp only [accessByte_word hm, oneByte_of_ne _ hhigh, Option.or_none] at hx
    simp only [oneByte, Option.ite_none_right_eq_some, Option.some.injEq] at hx
    obtain ⟨hp, hv⟩ := hx
    exact ⟨hv.symm, .inr ⟨rfl, hp.symm⟩⟩

section
variable {s : State} {m : MemEa} {a v : Word} {p : Nat} {x : Byte} (hodd : p % 2 = 1)
  (hzero : portByte (p - 1) = .zero) (haccess : ioAccess m a) (hx : accessByte m a v p = some x)
include hodd hzero haccess hx

theorem State.ioWrite_odd {t : State} (h : s.portWrite p x = .ok t) :
    s.ioWrite (isByteForm m) a v = .ok (t.record (outEvent m a v)) := by
  obtain ⟨rfl, ⟨hm, rfl⟩ | ⟨hm, rfl⟩⟩ := accessByte_odd hodd haccess hx
  · exact State.ioWrite_byte hm h
  · exact State.ioWrite_word hm (State.portWrite_zero hzero _) h

theorem State.ioWrite_odd_error {e : Stop} (h : s.portWrite p x = .error e) :
    s.ioWrite (isByteForm m) a v = .error e := by
  obtain ⟨rfl, ⟨hm, rfl⟩ | ⟨hm, rfl⟩⟩ := accessByte_odd hodd haccess hx
  · exact State.ioWrite_byte_error hm h
  · exact State.ioWrite_word_error hm (State.portWrite_zero hzero _) h

end

/-! ### Port A2h: relocation and paging (20_memory.md R72) -/

theorem State.portWrite_mmuControl_set (s : State) {x : Byte} (h : x.getLsbD 0 = true ∨ x.getLsbD 1 = true) :
    s.portWrite 0xA3 x = .error (.refuse .mmuEnable) := by
  have hset : (x.getLsbD 0 || x.getLsbD 1) = true := by simpa using h
  exact if_pos hset

theorem State.portWrite_mmuControl_clear (s : State) {x : Byte} (h0 : x.getLsbD 0 = false) (h1 : x.getLsbD 1 = false) :
    s.portWrite 0xA3 x = .ok { s with relocation := false, paging := false } := by
  have hclear : ¬ (x.getLsbD 0 || x.getLsbD 1) = true := by rw [h0, h1]; decide
  exact if_neg hclear

/-- Settles O27: the byte for A3h is refused where it sets bit 0 or 1, and otherwise leaves both off. -/
theorem mmuEnableRefused : Obligations.MmuEnableRefused := by
  intro rd m i s x hrow hadmits hx
  refine ⟨fun hset => ?refused, fun h0 h1 => ?completes⟩
  case refused =>
    exact exec_out_refused hrow hadmits
      (State.ioWrite_odd_error rfl rfl hadmits.2 hx (s.portWrite_mmuControl_set hset))
  case completes =>
    refine ⟨_, exec_out_ok hrow hadmits
      (State.ioWrite_odd rfl rfl hadmits.2 hx (s.portWrite_mmuControl_clear h0 h1)), rfl, rfl,
      .of_eq rfl rfl rfl, rfl, rfl, .of_eq rfl rfl rfl, ?_⟩
    constructor <;> rfl

/-! ### Port A0h: the detach of the IPL ROM (20_memory.md R61) -/

theorem State.portWrite_iplDetach_set (s : State) {x : Byte} (hx : x.getLsbD 0 = true) :
    s.portWrite 0xA1 x = .ok { s with iplAttached := false } :=
  if_pos hx

theorem State.portWrite_iplDetach_clear (s : State) {x : Byte} (hx : x.getLsbD 0 = false) :
    s.portWrite 0xA1 x = if s.iplAttached then .ok s else .error (.refuse .iplReattach) :=
  if_neg (by simp only [hx, Bool.false_eq_true, not_false_eq_true])

/-- Where a write of A0h completes, its bit 0 says whether the ROM is attached no longer. -/
theorem State.portWrite_iplDetach (s : State) {x : Byte} (h : x.getLsbD 0 = true ∨ s.iplAttached = true) :
    s.portWrite 0xA1 x = .ok { s with iplAttached := !x.getLsbD 0 } := by
  cases hx : x.getLsbD 0 with
  | true => exact s.portWrite_iplDetach_set hx
  | false =>
    have hattached : s.iplAttached = true := h.resolve_left (by rw [hx]; decide)
    have hsame : ({ s with iplAttached := !false } : State) = s := by rw [Bool.not_false, ← hattached]
    rw [s.portWrite_iplDetach_clear hx, if_pos hattached, hsame]

theorem State.portWrite_iplReattach (s : State) {x : Byte} (hx : x.getLsbD 0 = false) (hs : s.iplAttached = false) :
    s.portWrite 0xA1 x = .error (.refuse .iplReattach) := by
  rw [s.portWrite_iplDetach_clear hx, hs]
  rfl

theorem State.iplCovers_ipl {s : State} {a : Word} (hattached : s.iplAttached = true) (ha : 0xE000 ≤ a.toNat) :
    s.iplCovers a = true := by
  simp [State.iplCovers, hattached, iplBase, ha]

theorem State.iplCovers_detached {s : State} (h : s.iplAttached = false) (a : Word) : s.iplCovers a = false := by
  simp [State.iplCovers, h]

theorem State.writeByte_covered {s : State} {a : Word} (v : Byte) (hmmu : s.mmuOn = false)
    (h : s.iplCovers a = true) : s.writeByte a v = .error (.refuse (.storeToIpl a)) := by
  simp [State.writeByte, State.admitByte, hmmu, h]

theorem State.writeWord_covered {s : State} {a : Word} (v : Word) (hread : s.wordReadable a)
    (h : s.iplCovers a = true) : s.writeWord a v = .error (.refuse (.storeToIpl a)) := by
  simp [State.writeWord, State.admitWord_readable hread, h]

/-- Settles O30: what the attached ROM hides and refuses, and the byte for A1h that detaches it. -/
theorem iplRegionAndDetach : Obligations.IplRegionAndDetach := by
  refine ⟨fun s a v hattached ha => ?region, fun rd m i s x hrow hadmits hx =>
    ⟨fun hclear hdetached => ?reattach, fun h => ?completes⟩⟩
  case region =>
    have hcovers := State.iplCovers_ipl hattached ha
    refine ⟨fun mem => ?_, fun hmmu => ⟨State.writeByte_covered _ hmmu hcovers,
      fun heven => State.writeWord_covered v ⟨hmmu, heven⟩ hcovers⟩⟩
    rw [State.byteAt_ipl hattached ha]
    exact State.byteAt_ipl hattached ha
  case reattach =>
    exact exec_out_refused hrow hadmits
      (State.ioWrite_odd_error rfl rfl hadmits.2 hx (s.portWrite_iplReattach hclear hdetached))
  case completes =>
    refine ⟨_, exec_out_ok hrow hadmits (State.ioWrite_odd rfl rfl hadmits.2 hx (s.portWrite_iplDetach h)), rfl,
      fun hset b => State.iplCovers_detached (by simp [hset]) b, rfl, rfl, .of_eq rfl rfl rfl, rfl, rfl, ?_⟩
    constructor <;> rfl

/-! ### The TLB, the base and the limit register (20_memory.md R70, R71) -/

/-- `t` is `s` after the bytes `written` have been written to the MMU block, A1h and A3h apart: each of the eight TLB
entries (unless A9h, TLB Clear, was written), the base and the limit register hold the bytes written and, elsewhere, the
ones they held; and nothing but these registers and the count of draws has changed. -/
structure MmuWritten (written : Nat → Option Byte) (s t : State) : Prop where
  tlb : written 0xA9 = none → ∀ k, k < 8 → t.tlbEntry k =
    tlbOfBytes ((written (0x81 + 4 * k)).getD (tlbPageOf (s.tlbEntry k)))
      ((written (0x82 + 4 * k)).getD (tlbHighOf (s.tlbEntry k))) ((written (0x83 + 4 * k)).getD (tlbFrame (s.tlbEntry k)))
  base : t.base = wordOfBytes ((written 0xA4).getD (highByte s.base)) ((written 0xA5).getD (lowByte s.base))
  limit : t.limit = wordOfBytes ((written 0xA6).getD (highByte s.limit)) ((written 0xA7).getD (lowByte s.limit))
  frame : ∃ tlb base limit draws, t = { s with tlb := tlb, base := base, limit := limit, draws := draws }

/-- Two writes one after the other: the later byte counts. -/
theorem MmuWritten.trans {w w' : Nat → Option Byte} {s t u : State} (hst : MmuWritten w s t)
    (htu : MmuWritten w' t u) : MmuWritten (fun q => (w' q).or (w q)) s u where
  tlb hnone k hk := by
    obtain ⟨hw', hw⟩ := Option.or_eq_none_iff.1 hnone
    simp only [htu.tlb hw' k hk, hst.tlb hw k hk, tlbPageOf_tlbOfBytes, tlbHighOf_tlbOfBytes, tlbFrame_tlbOfBytes,
      Option.getD_or]
  base := by simp only [htu.base, hst.base, highByte_wordOfBytes, lowByte_wordOfBytes, Option.getD_or]
  limit := by simp only [htu.limit, hst.limit, highByte_wordOfBytes, lowByte_wordOfBytes, Option.getD_or]
  frame := by
    obtain ⟨tlb, base, limit, draws, rfl⟩ := hst.frame
    obtain ⟨tlb', base', limit', draws', rfl⟩ := htu.frame
    exact ⟨tlb', base', limit', draws', rfl⟩

theorem wordOfBytes_of_unwritten {w : Nat → Option Byte} {p q : Nat} (hp : w p = none) (hq : w q = none) (v : Word) :
    wordOfBytes ((w p).getD (highByte v)) ((w q).getD (lowByte v)) = v := by
  simp [hp, hq]

theorem tlbOfBytes_of_unwritten {w : Nat → Option Byte} {p q r : Nat} (hp : w p = none) (hq : w q = none)
    (hr : w r = none) (e : BitVec 24) :
    tlbOfBytes ((w p).getD (tlbPageOf e)) ((w q).getD (tlbHighOf e)) ((w r).getD (tlbFrame e)) = e := by
  simp [hp, hq, hr, tlbOfBytes_bytes]

/-- A write that reaches none of these registers. -/
theorem MmuWritten.unchanged {w : Nat → Option Byte} (s : State) (hlow : ∀ q, q < 0xA0 → q % 4 ≠ 0 → w q = none)
    (hhigh : ∀ q, 0xA4 ≤ q → q ≤ 0xA7 → w q = none) : MmuWritten w s s where
  tlb _ k hk := (tlbOfBytes_of_unwritten (hlow _ (by omega) (by omega)) (hlow _ (by omega) (by omega))
    (hlow _ (by omega) (by omega)) _).symm
  base := (wordOfBytes_of_unwritten (hhigh _ (by omega) (by omega)) (hhigh _ (by omega) (by omega)) _).symm
  limit := (wordOfBytes_of_unwritten (hhigh _ (by omega) (by omega)) (hhigh _ (by omega) (by omega)) _).symm
  frame := ⟨_, _, _, _, rfl⟩

/-- A write that reaches bytes of one TLB entry. -/
theorem MmuWritten.setTlb {w : Nat → Option Byte} (s : State) {n : Nat} (hn : n < 8)
    (hw : ∀ q, q < 0x81 + 4 * n ∨ 0x83 + 4 * n < q → w q = none) :
    MmuWritten w s (s.setTlb n (tlbOfBytes ((w (0x81 + 4 * n)).getD (tlbPageOf (s.tlbEntry n)))
      ((w (0x82 + 4 * n)).getD (tlbHighOf (s.tlbEntry n))) ((w (0x83 + 4 * n)).getD (tlbFrame (s.tlbEntry n))))) where
  tlb _ k hk := by
    rw [State.tlbEntry_setTlb _ _ _ _ hk]
    by_cases hkn : k = n
    · rw [if_pos hkn, hkn]
    · rw [if_neg hkn, tlbOfBytes_of_unwritten (hw _ (by omega)) (hw _ (by omega)) (hw _ (by omega))]
  base := (wordOfBytes_of_unwritten (hw _ (by omega)) (hw _ (by omega)) _).symm
  limit := (wordOfBytes_of_unwritten (hw _ (by omega)) (hw _ (by omega)) _).symm
  frame := ⟨_, _, _, _, rfl⟩

/-- The four port bytes of TLB[n] (20_memory.md R70). -/
theorem portByte_tlb {n : Nat} (hn : n < 8) :
    portByte (0x80 + 4 * n) = .zero ∧ portByte (0x81 + 4 * n) = .tlbPage n ∧ portByte (0x82 + 4 * n) = .tlbHigh n ∧
      portByte (0x83 + 4 * n) = .tlbLow n := by
  revert n; decide

/-- A byte written to a TLB port is the byte of its entry. -/
theorem State.portWrite_tlb (s : State) {p : Nat} (x : Byte) (hlow : 0x80 ≤ p) (hhigh : p < 0xA0) :
    ∃ t, s.portWrite p x = .ok t ∧ MmuWritten (oneByte p x) s t := by
  obtain ⟨n, hn, hp⟩ : ∃ n, n < 8 ∧ (p = 0x80 + 4 * n ∨ p = 0x81 + 4 * n ∨ p = 0x82 + 4 * n ∨ p = 0x83 + 4 * n) :=
    ⟨(p - 0x80) / 4, by omega, by omega⟩
  obtain ⟨hzero, hpage, hupper, hlower⟩ := portByte_tlb hn
  rcases hp with rfl | hp
  · refine ⟨s, State.portWrite_zero hzero x, .unchanged s ?_ ?_⟩
    · exact fun q _ hq => oneByte_of_ne x (by omega)
    · exact fun q hq _ => oneByte_of_ne x (by omega)
  have hentry := MmuWritten.setTlb (w := oneByte p x) s hn fun q hq => oneByte_of_ne x (by omega)
  rcases hp with rfl | rfl | rfl
  all_goals
    simp only [State.portWrite, hpage, hupper, hlower]
    refine ⟨_, rfl, ?_⟩
    simpa [oneByte] using hentry

theorem MmuWritten.setBase {w : Nat → Option Byte} (s : State) (hw : ∀ q, q < 0xA4 ∨ 0xA5 < q → w q = none) :
    MmuWritten w s
      { s with base := wordOfBytes ((w 0xA4).getD (highByte s.base)) ((w 0xA5).getD (lowByte s.base)) } where
  tlb _ k hk := (tlbOfBytes_of_unwritten (hw _ (by omega)) (hw _ (by omega)) (hw _ (by omega)) _).symm
  base := rfl
  limit := (wordOfBytes_of_unwritten (hw _ (by omega)) (hw _ (by omega)) _).symm
  frame := ⟨_, _, _, _, rfl⟩

theorem MmuWritten.setLimit {w : Nat → Option Byte} (s : State) (hw : ∀ q, q < 0xA6 → w q = none) :
    MmuWritten w s
      { s with limit := wordOfBytes ((w 0xA6).getD (highByte s.limit)) ((w 0xA7).getD (lowByte s.limit)) } where
  tlb _ k hk := (tlbOfBytes_of_unwritten (hw _ (by omega)) (hw _ (by omega)) (hw _ (by omega)) _).symm
  base := (wordOfBytes_of_unwritten (hw _ (by omega)) (hw _ (by omega)) _).symm
  limit := rfl
  frame := ⟨_, _, _, _, rfl⟩

theorem MmuWritten.clearTlb (s : State) (x : Byte) : MmuWritten (oneByte 0xA9 x) s s.clearTlb where
  tlb hnone := nomatch hnone
  base := (wordOfBytes_of_unwritten rfl rfl _).symm
  limit := (wordOfBytes_of_unwritten rfl rfl _).symm
  frame := ⟨_, _, _, _, rfl⟩

/-- A byte written to the rest of the block, A1h and A3h apart, is the byte of its register. -/
theorem State.portWrite_mmu (s : State) {p : Nat} (x : Byte) (hlow : 0xA0 ≤ p) (hhigh : p < 0xAA) (hipl : p ≠ 0xA1)
    (hcontrol : p ≠ 0xA3) : ∃ t, s.portWrite p x = .ok t ∧ MmuWritten (oneByte p x) s t := by
  have hports : (p = 0xA0 ∨ p = 0xA2 ∨ p = 0xA8) ∨ p = 0xA4 ∨ p = 0xA5 ∨ p = 0xA6 ∨ p = 0xA7 ∨ p = 0xA9 := by omega
  rcases hports with hzero | rfl | rfl | rfl | rfl | rfl
  · refine ⟨s, State.portWrite_zero ?_ x, .unchanged s ?_ ?_⟩
    · rcases hzero with rfl | rfl | rfl <;> rfl
    · exact fun q _ hq => oneByte_of_ne x (by omega)
    · exact fun q _ hq => oneByte_of_ne x (by omega)
  · exact ⟨_, rfl, .setBase (w := oneByte 0xA4 x) s fun q hq => oneByte_of_ne x (by omega)⟩
  · exact ⟨_, rfl, .setBase (w := oneByte 0xA5 x) s fun q hq => oneByte_of_ne x (by omega)⟩
  · exact ⟨_, rfl, .setLimit (w := oneByte 0xA6 x) s fun q hq => oneByte_of_ne x (by omega)⟩
  · exact ⟨_, rfl, .setLimit (w := oneByte 0xA7 x) s fun q hq => oneByte_of_ne x (by omega)⟩
  · exact ⟨_, rfl, .clearTlb s x⟩

theorem State.portWrite_mmuBlock (s : State) {p : Nat} (x : Byte) (hlow : 0x80 ≤ p) (hhigh : p < 0xAA)
    (hipl : p ≠ 0xA1) (hcontrol : p ≠ 0xA3) : ∃ t, s.portWrite p x = .ok t ∧ MmuWritten (oneByte p x) s t := by
  by_cases htlb : p < 0xA0
  · exact s.portWrite_tlb x hlow htlb
  · exact s.portWrite_mmu x (by omega) hhigh hipl hcontrol

/-- The one or two bytes of an OUT into the block, one after the other. -/
theorem State.ioWrite_mmuBlock (s : State) {m : MemEa} {a v : Word} (haccess : ioAccess m a) (hlow : 0x80 ≤ a.toNat)
    (hhigh : a.toNat < 0xAA) (hipl : accessByte m a v 0xA1 = none) (hcontrol : accessByte m a v 0xA3 = none) :
    ∃ t, s.ioWrite (isByteForm m) a v = .ok (t.record (outEvent m a v)) ∧ MmuWritten (accessByte m a v) s t := by
  cases hm : isByteForm m with
  | true =>
    rw [accessByte_byte hm] at hipl hcontrol ⊢
    obtain ⟨t, ht, hwritten⟩ := s.portWrite_mmuBlock (lowByte v) hlow hhigh
      (oneByte_eq_none_iff.1 hipl).symm (oneByte_eq_none_iff.1 hcontrol).symm
    exact ⟨t, hm ▸ State.ioWrite_byte hm ht, hwritten⟩
  | false =>
    have heven := haccess.2 hm
    simp only [accessByte_word hm, Option.or_eq_none_iff, oneByte_eq_none_iff] at hipl hcontrol
    rw [accessByte_word hm]
    obtain ⟨t, ht, hfirst⟩ := s.portWrite_mmuBlock (highByte v) hlow hhigh hipl.2.symm hcontrol.2.symm
    obtain ⟨u, hu, hsecond⟩ := t.portWrite_mmuBlock (lowByte v) (p := a.toNat + 1) (by omega) (by omega)
      hipl.1.symm hcontrol.1.symm
    exact ⟨u, hm ▸ State.ioWrite_word hm ht hu, hfirst.trans hsecond⟩

/-- Settles O26: the bytes of the OUT are held as `MmuWritten` says, and its frame is that of the whole instruction. -/
theorem outToMmuRegisters : Obligations.OutToMmuRegisters := by
  intro rd m i s hrow hadmits hlow hhigh written hipl hcontrol
  obtain ⟨t, ht, htlb, hbase, hlimit, ⟨tlb, base, limit, draws, rfl⟩⟩ :=
    s.ioWrite_mmuBlock hadmits.2 hlow hhigh hipl hcontrol
  refine ⟨_, exec_out_ok hrow hadmits ht, htlb, hbase, hlimit, rfl, .of_eq rfl rfl rfl, rfl, rfl, .of_eq rfl rfl rfl, ?_⟩
  constructor <;> rfl

end Sys2Proof.Machine
end

section
/-! Exceptions where their frame can be pushed (60_exceptions.md R307, R320, R321), and the word accesses at odd
addresses that take one under MISALIGNED_WORD = mem_violation (20_memory.md R52). -/

namespace Sys2Proof.Machine

/-! ### Trap entry as `TrapTaken` (60_exceptions.md R320) -/

/-- The state trap entry leaves, with its frame at SSP - 2 and SSP - 4, is one of a trap taken. -/
theorem State.trapped_trapTaken {s : State} (n : Nat) (pc : Word) (h : s.frameWritable) :
    TrapTaken n pc s.flag.toWord s (s.trapped n (s.ssp - 2) (s.ssp - 4) pc) := by
  obtain ⟨⟨⟨hmmu, heven2⟩, hcovers2⟩, ⟨-, heven4⟩, hcovers4⟩ := h
  have hcovers4' : (s.storeWord (s.ssp - 2) pc).iplCovers (s.ssp - 4) = false := hcovers4
  refine ⟨s.trapped_ssp .., ?saved_pc, ?saved_flag, rfl, ⟨rfl, rfl, rfl⟩, s.trapped_usp .., rfl, ?memory⟩
  case saved_pc =>
    rw [State.trapped_wordAt, State.wordAt_storeWord_ne _ _ _ _ heven4 heven2 (by bv_omega) hcovers4',
      State.wordAt_storeWord s _ pc heven2 hcovers2]
  case saved_flag => rw [State.trapped_wordAt, State.wordAt_storeWord _ _ _ heven4 hcovers4']
  case memory =>
    intro a h4 h3 h2 h1
    have h3' : a ≠ s.ssp - 4 + 1 := by bv_omega
    have h1' : a ≠ s.ssp - 2 + 1 := by bv_omega
    rw [State.trapped_byteAt, State.byteAt_storeWord _ _ _ _ heven4 hcovers4', if_neg h3', if_neg h4,
      State.byteAt_storeWord s _ _ pc heven2 hcovers2, if_neg h1', if_neg h2]

theorem State.trapEntry_trapTaken {s : State} (n : Nat) (pc : Word) (h : s.frameWritable) :
    ∃ t, s.trapEntry n pc = .next t ∧ TrapTaken n pc s.flag.toWord s t ∧ t.flag = s.flag.enterTrap ∧
      SystemAndTraceKept s t :=
  ⟨_, State.trapEntry_writable n pc h, State.trapped_trapTaken n pc h, rfl, s.trapped_system ..⟩

/-! ### An exception taken (60_exceptions.md R301, R302, R307) -/

/-- What an exception records before its trap entry: at most the cause or the page number, and draws. -/
theorem State.recordCause_eq (s : State) (x : Exn) :
    ∃ c p k, s.recordCause x = { s with mmuCause := c, faultPage := p, draws := k } := by
  cases x <;> exact ⟨_, _, _, rfl⟩

/-- The trap entry of an exception, from its state with the cause recorded; `k` is the count of draws there. -/
theorem State.raise_eq_trapEntry (s : State) (x : Exn) (npc : Word) :
    ∃ pc k, s.raise x npc = ({ s.recordCause x with draws := k } : State).trapEntry x.vector pc ∧
      (x.savedPc s.params = .this → pc = s.pc) ∧ (x.savedPc s.params = .next → pc = npc) := by
  simp only [State.raise]
  cases x.savedPc s.params with
  | this => exact ⟨_, (s.recordCause x).draws, rfl, fun _ => rfl, nofun⟩
  | next => exact ⟨_, (s.recordCause x).draws, rfl, nofun, fun _ => rfl⟩
  | any => exact ⟨_, _, rfl, nofun, nofun⟩

/-- Where its frame can be pushed an exception is taken, with the saved pc that FAULT_SAVED_PC gives it, and it changes
nothing else but what it records. -/
theorem State.raise_trapTaken {s : State} (x : Exn) (npc : Word) (h : s.frameWritable) :
    ∃ t pc, s.raise x npc = .next t ∧ TrapTaken x.vector pc s.flag.toWord s t ∧ t.flag = s.flag.enterTrap ∧
      (x.savedPc s.params = .this → pc = s.pc) ∧ (x.savedPc s.params = .next → pc = npc) ∧
      SystemAndTraceKept (s.recordCause x) t := by
  obtain ⟨pc, k, hraise, hthis, hnext⟩ := s.raise_eq_trapEntry x npc
  obtain ⟨c, p, _, hrecord⟩ := s.recordCause_eq x
  rw [hrecord] at hraise ⊢
  obtain ⟨t, ht, htaken, hflag, hsystem, htrace⟩ :=
    State.trapEntry_trapTaken (s := { s with mmuCause := c, faultPage := p, draws := k }) x.vector pc h
  refine ⟨t, pc, hraise.trans ht, ?_, hflag, hthis, hnext, ?_, htrace⟩
  · obtain ⟨hssp, hsavedPc, hsavedFlag, hhandler, hmode, husp, hregs, hmemory⟩ := htaken
    exact ⟨hssp, hsavedPc, hsavedFlag, hhandler, hmode, husp, hregs, hmemory⟩
  · obtain ⟨hrom, hipl, hhalted, hpending, hrel, hpaging, hbase, hlimit, hcause, hpage, htlb, hio, hparams⟩ := hsystem
    exact ⟨hrom, hipl, hhalted, hpending, hrel, hpaging, hbase, hlimit, hcause, hpage, htlb, hio, hparams⟩

/-- What `MemViolation` records is the cause alone. -/
theorem SystemKept.of_recordCause_memViolation {s t : State} (h : SystemKept (s.recordCause .memViolation) t) :
    SystemKept ({ s with mmuCause := t.mmuCause } : State) t where
  rom := h.rom
  iplAttached := h.iplAttached
  halted := h.halted
  pending := h.pending
  relocation := h.relocation
  paging := h.paging
  base := h.base
  limit := h.limit
  mmuCause := rfl
  faultPage := h.faultPage
  tlb := h.tlb
  io := h.io
  params := h.params

/-! ### Accesses at an odd address (20_memory.md R52) -/

section
variable {s : State} (hmmu : s.mmuOn = false) (hp : s.params.misaligned = .memViolation)
include hmmu hp

theorem State.value_odd {m : MemEa} (hword : isByteForm m = false) (hodd : (s.addr m).toNat % 2 = 1) :
    s.value (.mem m) = .error (.raise .memViolation) := by
  simp only [State.value, State.memValue, hword, Bool.false_eq_true, if_false]
  exact State.readWord_error (State.admitWord_odd_memViolation hmmu hodd hp)

theorem State.storeValue_odd {m : MemEa} (v : Word) (hword : isByteForm m = false)
    (hodd : (s.addr m).toNat % 2 = 1) : s.storeValue m v = .error (.raise .memViolation) := by
  simp only [State.storeValue, hword, Bool.false_eq_true, if_false]
  exact State.writeWord_error v (State.admitWord_odd_memViolation hmmu hodd hp)

variable (hodd : (s.readReg .sp).toNat % 2 = 1)
include hodd

theorem State.push_odd (v : Word) : s.push v = .error (.raise .memViolation) := by
  have hslot : (s.readReg .sp - 2).toNat % 2 = 1 := by bv_omega
  simp only [State.push, State.writeWord_error v (State.admitWord_odd_memViolation hmmu hslot hp)]

theorem State.pop_odd : s.pop = .error (.raise .memViolation) := by
  simp only [State.pop, State.readWord_error (State.admitWord_odd_memViolation hmmu hodd hp)]

theorem State.trapReturn_odd : s.trapReturn = .error (.raise .memViolation) := by
  simp only [State.trapReturn, State.readWord_error (State.admitWord_odd_memViolation hmmu hodd hp)]

end

/-! ### An instruction whose access stops, stops as the access does (60_exceptions.md R321) -/

section
variable {s : State} {e : Stop}

theorem exec_st_stop {rd : Reg} {m : MemEa} (h : s.storeValue m (s.readReg rd) = .error e) :
    exec (Instr.ofSt rd m) s = s.conclude (s.npcMem m) (.error e) := by
  rw [exec_st, State.store, h]

theorem exec_push_stop {rd : Reg} (hsp : s.namesSp rd = false) (h : s.push (s.readReg rd) = .error e) :
    exec (.push rd) s = s.conclude s.npcOne (.error e) := by
  change execPush rd s = _
  simp only [execPush, hsp, h, Bool.false_eq_true, if_false]

theorem exec_pop_stop {rd : Reg} (hsp : s.namesSp rd = false) (h : s.pop = .error e) :
    exec (.pop rd) s = s.conclude s.npcOne (.error e) := by
  change execPop rd s = _
  simp only [execPop, hsp, h, Bool.false_eq_true, if_false]

theorem exec_ret_stop (h : s.pop = .error e) : exec .ret s = s.conclude s.npcOne (.error e) := by
  change execRet s = _
  simp only [execRet, h]

theorem exec_reti_stop (h : s.trapReturn = .error e) : exec .reti s = s.conclude s.npcOne (.error e) := by
  change execReti s = _
  simp only [execReti, h]

/-- CALL is two words long in both its modes (43_jump_call.md R217). -/
theorem State.npcMem_of_callRow {m : MemEa} {i : Instr} (h : callRow m = some i) : s.npcMem m = s.pc + 4 := by
  cases m with
  | drct => rfl
  | index => rfl
  | _ => cases h

theorem exec_call_stop {m : MemEa} {i : Instr} (hrow : callRow m = some i) (h : s.push (s.npcMem m) = .error e) :
    exec i s = s.conclude (s.pc + 4) (.error e) := by
  rw [exec_call s hrow, State.call, h, State.npcMem_of_callRow hrow]

end

/-- Settles O43: the access stops with `MemViolation`, so the instruction is that exception and no more. -/
theorem misalignedAccessTraps : Obligations.MisalignedAccessTraps := by
  intro s hp hframe traps
  have ⟨⟨⟨hmmu, _⟩, _⟩, _⟩ := hframe
  have htraps : ∀ i bytes, exec i s = s.raise .memViolation (s.pc + bytes) → traps i bytes := by
    intro i bytes hexec
    obtain ⟨t, pc, ht, htaken, hflag, hthis, hnext, hsystem, htrace⟩ :=
      State.raise_trapTaken .memViolation (s.pc + bytes) hframe
    exact ⟨t, pc, hexec.trans ht, htaken, hflag, hthis, hnext, .of_recordCause_memViolation hsystem, htrace⟩
  refine ⟨fun m hword hodd => ⟨fun op rd hrd => htraps _ _ ?ea, fun rd => htraps _ _ ?st⟩, fun hodd =>
    ⟨fun rd hsp => ⟨htraps _ _ ?push, htraps _ _ ?pop⟩, htraps _ _ ?ret, htraps _ _ ?reti,
      fun m i hcall => htraps _ _ ?call⟩⟩
  case ea => exact exec_ea_stop op rd _ s _ hrd (State.value_odd hmmu hp hword hodd)
  case st => exact exec_st_stop (State.storeValue_odd hmmu hp _ hword hodd)
  case push => exact exec_push_stop hsp (State.push_odd hmmu hp hodd _)
  case pop => exact exec_pop_stop hsp (State.pop_odd hmmu hp hodd)
  case ret => exact exec_ret_stop (State.pop_odd hmmu hp hodd)
  case reti => exact exec_reti_stop (State.trapReturn_odd hmmu hp hodd)
  case call => exact exec_call_stop hcall (State.push_odd hmmu hp hodd _)

end Sys2Proof.Machine
end

section
/-! The round trip of encoding and decoding (30_encoding.md R91, R100 to R102), by the rows of the opcode map: for each
row the encoding of its instructions from their fields, and which instruction its words spell. -/

namespace Sys2Proof

/-! ### The OP byte as a row and a column of the opcode map (30_encoding.md R90, R100) -/

/-- The OP byte of a cell of the opcode map. -/
def opByte (op5 mode : Nat) : Byte := BitVec.ofNat 8 (8 * op5 + mode)

theorem opByte_toNat {op5 mode : Nat} (h5 : op5 < 32) (hm : mode < 8) : (opByte op5 mode).toNat = 8 * op5 + mode := by
  rw [opByte, BitVec.toNat_ofNat]; omega

theorem opByte_fields (w : Word) : opByte (op5Of w) (modeOf w) = w.extractLsb' 8 8 := by
  apply BitVec.eq_of_toNat_eq
  rw [opByte_toNat (op5Of_lt w) (modeOf_lt w), op5Of_eq, modeOf_eq]
  omega

theorem decode_opByte {op5 mode : Nat} (h5 : op5 < 32) (hm : mode < 8) (rd rx : BitVec 4) (w2 : Word) :
    decode (word1 (opByte op5 mode) rd rx) w2 =
      decodeFields (word1 (opByte op5 mode) rd rx) op5 mode rd rx w2 := by
  have hrow : (8 * op5 + mode) / 8 = op5 := by omega
  have hcolumn : (8 * op5 + mode) % 8 = mode := by omega
  rw [decode_word1, opByte_toNat h5 hm, hrow, hcolumn]

/-! ### The fields of an operand (30_encoding.md R91, R93) -/

/-- The mode number of an operand form. -/
def Ea.mode : Ea → Nat
  | .mem (.drct _) => 0
  | .mem (.index _ _) => 1
  | .imm _ => 2
  | .mem (.fpRlt _) => 3
  | .reg _ => 4
  | .imm4 _ => 5
  | .mem (.indr _) => 6
  | .mem (.bIndr _) => 7

/-- The Rx field of an operand form. -/
def Ea.rx : Ea → BitVec 4
  | .mem (.drct _) => 0
  | .mem (.index _ rx) => rx.nibble
  | .imm _ => 0
  | .mem (.fpRlt dsp4) => dsp4Field dsp4
  | .reg rs => rs.nibble
  | .imm4 n => imm4Field n
  | .mem (.indr rx) => rx.nibble
  | .mem (.bIndr rx) => rx.nibble

/-- The words of an operand form after the first. -/
def Ea.words : Ea → List Word
  | .mem (.drct dsp) => [dsp]
  | .mem (.index dsp _) => [dsp]
  | .imm w => [w]
  | _ => []

/-- The words after the first in a mode (30_encoding.md R91). -/
def operandWords (mode : Nat) (w2 : Word) : List Word := if mode < 3 then [w2] else []

theorem Ea.mode_lt (ea : Ea) : ea.mode < 8 := by
  rcases ea with (_ | _ | _ | _ | _) | _ | _ | _ <;> simp [Ea.mode]

/-- The fields of a well-formed operand spell it. -/
theorem Ea.ofMode_fields {ea : Ea} (h : ea.wellFormed = true) :
    Ea.ofMode ea.mode ea.rx (ea.words.getD 0 0) = some ea := by
  rcases ea with (dsp | ⟨dsp, rx⟩ | dsp4 | rx | rx) | imm | rs | n
  case mem.fpRlt => exact congrArg (fun d => some (Ea.mem (.fpRlt d))) (dsp4_value dsp4 h)
  case imm4 => exact congrArg (fun k => some (Ea.imm4 k)) (imm4_value n h)
  all_goals simp [Ea.ofMode, Ea.mode, Ea.rx, Ea.words]

/-- An operand spelt by fields is well-formed and has these fields. -/
theorem Ea.fields_of_ofMode {mode : Nat} {rx : BitVec 4} {w2 : Word} {ea : Ea} (hm : mode < 8)
    (h : Ea.ofMode mode rx w2 = some ea) :
    ea.wellFormed = true ∧ ea.mode = mode ∧ ea.rx = rx ∧ ea.words = operandWords mode w2 := by
  match mode, hm with
  | 0, _ | 2, _ =>
    simp only [Ea.ofMode, Option.ite_none_right_eq_some, Option.some.injEq] at h
    obtain ⟨hrx, rfl⟩ := h
    exact ⟨rfl, rfl, hrx.symm, rfl⟩
  | 3, _ => cases h; exact ⟨(dsp4_field rx).1, rfl, (dsp4_field rx).2, rfl⟩
  | 5, _ => cases h; exact ⟨(imm4_field rx).1, rfl, (imm4_field rx).2, rfl⟩
  | 1, _ | 4, _ | 6, _ | 7, _ => cases h; exact ⟨rfl, rfl, Reg.nibble_ofNibble rx, rfl⟩

/-! ### The jump conditions (30_encoding.md R101) -/

/-- The Rd field that selects a condition. -/
def Cond.nibble : Cond → BitVec 4
  | .z => 0x0
  | .c => 0x1
  | .m => 0x2
  | .o => 0x3
  | .gt => 0x4
  | .ge => 0x5
  | .le => 0x6
  | .lt => 0x7
  | .nz => 0x8
  | .nc => 0x9
  | .nm => 0xA
  | .no => 0xB
  | .hi => 0xC
  | .ls => 0xE
  | .always => 0xF

@[simp] theorem Cond.ofNibble_nibble (k : Cond) : Cond.ofNibble k.nibble = some k := by cases k <;> rfl

theorem Cond.nibble_of_ofNibble {n : BitVec 4} {k : Cond} (h : Cond.ofNibble n = some k) : k.nibble = n := by
  revert n k
  decide

/-! ### Encodings by row (30_encoding.md R100) -/

/-- The row of the opcode map of an eight-mode instruction. -/
def EaOp.row : EaOp → Nat
  | .ld => 0x01
  | .add => 0x03
  | .sub => 0x04
  | .cmp => 0x05
  | .and => 0x06
  | .or => 0x07
  | .xor => 0x08
  | .adds => 0x09
  | .mul => 0x0A
  | .div => 0x0B
  | .mod => 0x0C
  | .shla => 0x10
  | .shll => 0x11
  | .shra => 0x12
  | .shrl => 0x13

theorem encode_ofEa (op : EaOp) (rd : Reg) (ea : Ea) :
    encode (Instr.ofEa op rd ea) = word1 (opByte op.row ea.mode) rd.nibble ea.rx :: ea.words := by
  rcases ea with (_ | _ | _ | _ | _) | _ | _ | _ <;> cases op <;> rfl

theorem wellFormed_ofEa (op : EaOp) (rd : Reg) (ea : Ea) : (Instr.ofEa op rd ea).wellFormed = ea.wellFormed := by
  rcases ea with (_ | _ | _ | _ | _) | _ | _ | _ <;> cases op <;> rfl

theorem encode_ofSt (rd : Reg) (m : MemEa) :
    encode (Instr.ofSt rd m) = word1 (opByte 0x02 (Ea.mem m).mode) rd.nibble (Ea.mem m).rx :: (Ea.mem m).words := by
  cases m <;> rfl

theorem wellFormed_ofSt (rd : Reg) (m : MemEa) : (Instr.ofSt rd m).wellFormed = m.wellFormed := by cases m <;> rfl

theorem encode_ofJumpDrct (k : Cond) (dsp : Word) :
    encode (Instr.ofJumpDrct k dsp) = [word1 (opByte 0x14 0) k.nibble 0, dsp] := by cases k <;> rfl

theorem wellFormed_ofJumpDrct (k : Cond) (dsp : Word) : (Instr.ofJumpDrct k dsp).wellFormed = true := by
  cases k <;> rfl

theorem encode_ofJumpIndex (k : Cond) (rx : Reg) (dsp : Word) :
    encode (Instr.ofJumpIndex k rx dsp) = [word1 (opByte 0x14 1) k.nibble rx.nibble, dsp] := by cases k <;> rfl

theorem wellFormed_ofJumpIndex (k : Cond) (rx : Reg) (dsp : Word) :
    (Instr.ofJumpIndex k rx dsp).wellFormed = true := by cases k <;> rfl

section
open Machine
variable {rd : Reg} {m : MemEa} {i : Instr}

theorem encode_callRow (h : callRow m = some i) :
    encode i = word1 (opByte 0x15 (Ea.mem m).mode) 0 (Ea.mem m).rx :: (Ea.mem m).words := by
  cases m <;> cases h <;> rfl

theorem wellFormed_callRow (h : callRow m = some i) : m.wellFormed = true ∧ i.wellFormed = true := by
  cases m <;> cases h <;> exact ⟨rfl, rfl⟩

theorem encode_inRow (h : inRow rd m = some i) :
    encode i = word1 (opByte 0x16 (Ea.mem m).mode) rd.nibble (Ea.mem m).rx :: (Ea.mem m).words := by
  cases m <;> cases h <;> rfl

theorem wellFormed_inRow (h : inRow rd m = some i) : m.wellFormed = true ∧ i.wellFormed = true := by
  cases m <;> cases h <;> exact ⟨rfl, rfl⟩

theorem encode_outRow (h : outRow rd m = some i) :
    encode i = word1 (opByte 0x17 (Ea.mem m).mode) rd.nibble (Ea.mem m).rx :: (Ea.mem m).words := by
  cases m <;> cases h <;> rfl

theorem wellFormed_outRow (h : outRow rd m = some i) : m.wellFormed = true ∧ i.wellFormed = true := by
  cases m <;> cases h <;> exact ⟨rfl, rfl⟩

end

/-! ### Which instruction the words of a row spell (30_encoding.md R100 to R102) -/

section
open Machine
variable {w1 w2 : Word} {mode : Nat} {rd rx : BitVec 4} {i : Instr}

/-- The check of a fixed field comes before the instruction (30_encoding.md R102). -/
theorem guarded_eq_instr_iff {c : Prop} [Decidable c] {j : Instr} :
    (if c then Decoded.instr j else .reserved) = .instr i ↔ c ∧ j = i := by
  split <;> simp_all

theorem decodeFixed_eq_instr_iff {wantRd : BitVec 4} {j : Instr} :
    decodeFixed rd rx wantRd j = .instr i ↔ (rd = wantRd ∧ rx = 0) ∧ j = i := guarded_eq_instr_iff

theorem decodeReg_eq_instr_iff {row : Reg → Instr} :
    decodeReg rd rx row = .instr i ↔ rx = 0 ∧ row (Reg.ofNibble rd) = i := guarded_eq_instr_iff

theorem decodeEa_eq_instr_iff {op : EaOp} : decodeEa op mode rd rx w2 = .instr i ↔
    ∃ ea, Ea.ofMode mode rx w2 = some ea ∧ Instr.ofEa op (Reg.ofNibble rd) ea = i := by
  unfold decodeEa
  split <;> simp_all

theorem decodeSt_eq_instr_iff : decodeSt mode rd rx w2 = .instr i ↔
    ∃ m, Ea.ofMode mode rx w2 = some (.mem m) ∧ Instr.ofSt (Reg.ofNibble rd) m = i := by
  unfold decodeSt
  split
  case h_1 | h_2 | h_3 => simp [Ea.ofMode]
  case h_4 h => simp [h]
  case h_5 h => simpa using fun m hm => absurd hm (h m)

theorem decodeJump_eq_instr_iff : decodeJump w1 mode rd rx w2 = .instr i ↔
    ∃ k, Cond.ofNibble rd = some k ∧
      ((mode = 0 ∧ rx = 0 ∧ Instr.ofJumpDrct k w2 = i) ∨
        (mode = 1 ∧ Instr.ofJumpIndex k (Reg.ofNibble rx) w2 = i)) := by
  unfold decodeJump
  split
  case h_1 => split <;> simp_all [guarded_eq_instr_iff]
  case h_2 => split <;> simp_all
  all_goals simp_all

theorem decodeCall_eq_instr_iff (hm : mode < 8) : decodeCall w1 mode rd rx w2 = .instr i ↔
    rd = 0 ∧ ∃ m, Ea.ofMode mode rx w2 = some (.mem m) ∧ callRow m = some i := by
  unfold decodeCall
  interval_cases mode <;> simp [guarded_eq_instr_iff, Ea.ofMode, callRow, and_assoc]

theorem decodeIn_eq_instr_iff (hm : mode < 8) : decodeIn mode rd rx w2 = .instr i ↔
    ∃ m, Ea.ofMode mode rx w2 = some (.mem m) ∧ inRow (Reg.ofNibble rd) m = some i := by
  unfold decodeIn
  interval_cases mode <;> simp [guarded_eq_instr_iff, Ea.ofMode, inRow]

theorem decodeOut_eq_instr_iff (hm : mode < 8) : decodeOut mode rd rx w2 = .instr i ↔
    ∃ m, Ea.ofMode mode rx w2 = some (.mem m) ∧ outRow (Reg.ofNibble rd) m = some i := by
  unfold decodeOut
  interval_cases mode <;> simp [guarded_eq_instr_iff, Ea.ofMode, outRow]

end

theorem EaOp.row_lt (op : EaOp) : op.row < 32 := by cases op <;> decide

theorem decodeFields_row (op : EaOp) (w1 : Word) (mode : Nat) (rd rx : BitVec 4) (w2 : Word) :
    decodeFields w1 op.row mode rd rx w2 = decodeEa op mode rd rx w2 := by cases op <;> rfl

/-- What a jump's word spells: the row of the condition its Rd field selects (30_encoding.md R101, R104). -/
def jumpRow (row : Cond → Instr) : Option Cond → Decoded
  | some k => .instr (row k)
  | none => .reserved

theorem decode_jumpDrct (rd : BitVec 4) (dsp : Word) :
    decode (word1 0xA0 rd 0) dsp = jumpRow (Instr.ofJumpDrct · dsp) (Cond.ofNibble rd) := by
  rw [decode_word1]
  change decodeJump (word1 0xA0 rd 0) 0 rd 0 dsp = _
  unfold decodeJump
  cases Cond.ofNibble rd <;> rfl

theorem decode_jumpIndex (rd rx : BitVec 4) (dsp : Word) :
    decode (word1 0xA1 rd rx) dsp = jumpRow (Instr.ofJumpIndex · (Reg.ofNibble rx) dsp) (Cond.ofNibble rd) := by
  rw [decode_word1]
  change decodeJump (word1 0xA1 rd rx) 1 rd rx dsp = _
  unfold decodeJump
  cases Cond.ofNibble rd <;> rfl

/-! ### An encoding decodes to its instruction -/

/-- An instruction is decoded from its encoding if its row spells it from the encoding's fields. -/
theorem decodeWords_of_row {i : Instr} {op5 mode : Nat} {rd rx : BitVec 4} {tail : List Word}
    (henc : encode i = word1 (opByte op5 mode) rd rx :: tail) (h5 : op5 < 32) (hm : mode < 8)
    (hrow : decodeFields (word1 (opByte op5 mode) rd rx) op5 mode rd rx (tail.getD 0 0) = .instr i) :
    decodeWords (encode i) = .instr i := by
  rw [henc]
  exact (decode_opByte h5 hm rd rx _).trans hrow

/-- Settles O50, by the shapes of the rows: each shape's encoding carries the fields from which its row spells it. -/
theorem decodeOfEncode : Obligations.DecodeOfEncode := by
  intro i
  induction i using Machine.Instr.byShape with
  | hea op rd ea =>
    intro hwf
    rw [wellFormed_ofEa] at hwf
    refine decodeWords_of_row (encode_ofEa op rd ea) op.row_lt ea.mode_lt ?_
    rw [decodeFields_row, decodeEa_eq_instr_iff]
    exact ⟨ea, Ea.ofMode_fields hwf, by rw [Reg.ofNibble_nibble]⟩
  | hst rd m =>
    intro hwf
    rw [wellFormed_ofSt] at hwf
    exact decodeWords_of_row (encode_ofSt rd m) (by decide) (Ea.mode_lt _)
      (decodeSt_eq_instr_iff.mpr ⟨m, Ea.ofMode_fields hwf, by rw [Reg.ofNibble_nibble]⟩)
  | hjd k dsp =>
    intro _
    rw [encode_ofJumpDrct]
    exact (decode_jumpDrct k.nibble dsp).trans (by rw [Cond.ofNibble_nibble, jumpRow])
  | hji k rx dsp =>
    intro _
    rw [encode_ofJumpIndex]
    exact (decode_jumpIndex k.nibble rx.nibble dsp).trans (by rw [Cond.ofNibble_nibble, Reg.ofNibble_nibble, jumpRow])
  | hcall m i hrow =>
    exact fun _ => decodeWords_of_row (encode_callRow hrow) (by decide) (Ea.mode_lt _)
      ((decodeCall_eq_instr_iff (Ea.mode_lt _)).mpr ⟨rfl, m, Ea.ofMode_fields (wellFormed_callRow hrow).1, hrow⟩)
  | hin rd m i hrow =>
    exact fun _ => decodeWords_of_row (encode_inRow hrow) (by decide) (Ea.mode_lt _)
      ((decodeIn_eq_instr_iff (Ea.mode_lt _)).mpr
        ⟨m, Ea.ofMode_fields (wellFormed_inRow hrow).1, by rwa [Reg.ofNibble_nibble]⟩)
  | hout rd m i hrow =>
    exact fun _ => decodeWords_of_row (encode_outRow hrow) (by decide) (Ea.mode_lt _)
      ((decodeOut_eq_instr_iff (Ea.mode_lt _)).mpr
        ⟨m, Ea.ofMode_fields (wellFormed_outRow hrow).1, by rwa [Reg.ofNibble_nibble]⟩)
  | hpush rd =>
    exact fun _ => decodeWords_of_row (op5 := 0x18) (mode := 0) rfl (by decide) (by decide)
      (decodeReg_eq_instr_iff.mpr ⟨rfl, by rw [Reg.ofNibble_nibble]⟩)
  | hpop rd =>
    exact fun _ => decodeWords_of_row (op5 := 0x18) (mode := 4) rfl (by decide) (by decide)
      (decodeReg_eq_instr_iff.mpr ⟨rfl, by rw [Reg.ofNibble_nibble]⟩)
  | hno | hret | hreti | hsvc | hhalt => exact fun _ => rfl

/-! ### Words that decode to an instruction are its encoding -/

/-- An instruction is well-formed, and its encoding is the first word of these fields and the words `tail`. -/
structure SpeltBy (op5 mode : Nat) (rd rx : BitVec 4) (tail : List Word) (i : Instr) : Prop where
  wellFormed : i.wellFormed = true
  encode : encode i = word1 (opByte op5 mode) rd rx :: tail

/-- The words of an instruction with an operand, from the encoding of its row. -/
theorem SpeltBy.of_operand {op5 mode : Nat} {rd rx : BitVec 4} {w2 : Word} {ea : Ea} {i : Instr} (hm : mode < 8)
    (hea : Ea.ofMode mode rx w2 = some ea) (hwf : ea.wellFormed = true → i.wellFormed = true)
    (henc : Sys2Proof.encode i = word1 (opByte op5 ea.mode) rd ea.rx :: ea.words) :
    SpeltBy op5 mode rd rx (operandWords mode w2) i := by
  obtain ⟨hfits, rfl, rfl, hwords⟩ := Ea.fields_of_ofMode hm hea
  exact ⟨hwf hfits, hwords ▸ henc⟩

section
open Machine
variable {w1 w2 : Word} {mode : Nat} {rd rx : BitVec 4} {i : Instr} (hm : mode < 8)

include hm in
theorem speltBy_of_decodeEa {op : EaOp} (h : decodeEa op mode rd rx w2 = .instr i) :
    SpeltBy op.row mode rd rx (operandWords mode w2) i := by
  obtain ⟨ea, hea, rfl⟩ := decodeEa_eq_instr_iff.mp h
  exact .of_operand hm hea (wellFormed_ofEa op _ ea).trans (by rw [encode_ofEa, Reg.nibble_ofNibble])

include hm in
theorem speltBy_of_decodeSt (h : decodeSt mode rd rx w2 = .instr i) :
    SpeltBy 0x02 mode rd rx (operandWords mode w2) i := by
  obtain ⟨m, hea, rfl⟩ := decodeSt_eq_instr_iff.mp h
  exact .of_operand hm hea (wellFormed_ofSt _ m).trans (by rw [encode_ofSt, Reg.nibble_ofNibble])

theorem speltBy_of_decodeJump (h : decodeJump w1 mode rd rx w2 = .instr i) :
    SpeltBy 0x14 mode rd rx (operandWords mode w2) i := by
  obtain ⟨k, hk, ⟨rfl, rfl, rfl⟩ | ⟨rfl, rfl⟩⟩ := decodeJump_eq_instr_iff.mp h
  · exact ⟨wellFormed_ofJumpDrct k w2, Cond.nibble_of_ofNibble hk ▸ encode_ofJumpDrct k w2⟩
  · refine ⟨wellFormed_ofJumpIndex k _ w2, ?_⟩
    rw [encode_ofJumpIndex, Reg.nibble_ofNibble, Cond.nibble_of_ofNibble hk]; rfl

include hm in
theorem speltBy_of_decodeCall (h : decodeCall w1 mode rd rx w2 = .instr i) :
    SpeltBy 0x15 mode rd rx (operandWords mode w2) i := by
  obtain ⟨rfl, m, hea, hrow⟩ := (decodeCall_eq_instr_iff hm).mp h
  exact .of_operand hm hea (fun _ => (wellFormed_callRow hrow).2) (encode_callRow hrow)

include hm in
theorem speltBy_of_decodeIn (h : decodeIn mode rd rx w2 = .instr i) :
    SpeltBy 0x16 mode rd rx (operandWords mode w2) i := by
  obtain ⟨m, hea, hrow⟩ := (decodeIn_eq_instr_iff hm).mp h
  exact .of_operand hm hea (fun _ => (wellFormed_inRow hrow).2) (by rw [encode_inRow hrow, Reg.nibble_ofNibble])

include hm in
theorem speltBy_of_decodeOut (h : decodeOut mode rd rx w2 = .instr i) :
    SpeltBy 0x17 mode rd rx (operandWords mode w2) i := by
  obtain ⟨m, hea, hrow⟩ := (decodeOut_eq_instr_iff hm).mp h
  exact .of_operand hm hea (fun _ => (wellFormed_outRow hrow).2) (by rw [encode_outRow hrow, Reg.nibble_ofNibble])

theorem speltBy_of_decodeFixed {op5 : Nat} {wantRd : BitVec 4} {j : Instr} (hwf : j.wellFormed = true)
    (henc : encode j = [word1 (opByte op5 mode) wantRd 0]) (h : decodeFixed rd rx wantRd j = .instr i) :
    SpeltBy op5 mode rd rx [] i := by
  obtain ⟨⟨rfl, rfl⟩, rfl⟩ := decodeFixed_eq_instr_iff.mp h
  exact ⟨hwf, henc⟩

theorem speltBy_of_decodeReg {op5 : Nat} {row : Reg → Instr} (hwf : ∀ r, (row r).wellFormed = true)
    (henc : ∀ r, encode (row r) = [word1 (opByte op5 mode) r.nibble 0]) (h : decodeReg rd rx row = .instr i) :
    SpeltBy op5 mode rd rx [] i := by
  obtain ⟨rfl, rfl⟩ := decodeReg_eq_instr_iff.mp h
  exact ⟨hwf _, by rw [henc, Reg.nibble_ofNibble]⟩

/-- What a row and a column of the opcode map spell. -/
theorem speltBy_of_decodeFields {op5 : Nat} (hm : mode < 8) (h : decodeFields w1 op5 mode rd rx w2 = .instr i) :
    SpeltBy op5 mode rd rx (if takesEa op5 then operandWords mode w2 else []) i := by
  unfold decodeFields at h
  split at h
  case h_3 => exact speltBy_of_decodeSt hm h
  case h_18 => exact speltBy_of_decodeJump h
  case h_19 => exact speltBy_of_decodeCall hm h
  case h_20 => exact speltBy_of_decodeIn hm h
  case h_21 => exact speltBy_of_decodeOut hm h
  case h_22 =>
    split at h
    · exact speltBy_of_decodeReg (fun _ => rfl) (fun _ => rfl) h
    · exact speltBy_of_decodeReg (fun _ => rfl) (fun _ => rfl) h
    · cases h
  case h_23 =>
    split at h
    · exact speltBy_of_decodeFixed rfl rfl h
    · exact speltBy_of_decodeFixed rfl rfl h
    · cases h
  case h_1 | h_24 | h_25 =>
    split at h
    · exact speltBy_of_decodeFixed rfl rfl h
    · cases h
  case h_26 => cases h
  all_goals exact speltBy_of_decodeEa hm h

end

theorem decode_zero_of_instr {w1 w2 : Word} {i : Instr} (h : decode w1 w2 = .instr i) :
    ∃ j, decode w1 0 = .instr j := by
  rcases decode_secondWord w1 w2 0 with heq | ⟨-, -, hj⟩
  · exact ⟨i, heq ▸ h⟩
  · exact hj

/-- Settles O51: the row of the first word spells the instruction from its fields and, in a row and a mode with an
operand word, from the second word; and these are the words `hasSecondWord` says (30_encoding.md R92). -/
theorem encodeOfDecode : Obligations.EncodeOfDecode := by
  intro w1 w2 i h
  obtain ⟨hwf, henc⟩ := speltBy_of_decodeFields (modeOf_lt w1) h
  obtain ⟨j, hj⟩ := decode_zero_of_instr h
  refine ⟨hwf, ?_⟩
  rw [henc, opByte_fields, word1_fields, hasSecondWord_of_instr hj]
  cases takesEa (op5Of w1) <;> simp [operandWords, apply_ite]

/-! ### The jump conditions and the spec's sample words (30_encoding.md R101, 95_test_vectors.md) -/

/-- The conditions, in the order of their Rd fields (30_encoding.md R101); Dh selects none. -/
def jumpConditions : List (Option Cond) :=
  [some .z, some .c, some .m, some .o, some .gt, some .ge, some .le, some .lt, some .nz, some .nc, some .nm, some .no,
    some .hi, none, some .ls, some .always]

theorem map_ofNibble_range : (List.range 16).map (fun c => Cond.ofNibble (BitVec.ofNat 4 c)) = jumpConditions := by
  decide

/-- Decoding along the Rd fields of one OP byte, where the condition selects the row. -/
theorem map_decode_jumps (word : BitVec 4 → Word) (dsp : Word) (row : Cond → Instr)
    (h : ∀ rd, decode (word rd) dsp = jumpRow row (Cond.ofNibble rd)) :
    (List.range 16).map (fun c => decode (word (BitVec.ofNat 4 c)) dsp) = jumpConditions.map (jumpRow row) := by
  rw [← map_ofNibble_range, List.map_map]
  exact List.map_congr_left fun c _ => h _

/-- Settles O53: the conditions in the order of the Rd fields, each under the row its OP byte gives it. -/
theorem jumpConditionsDecode : Obligations.JumpConditionsDecode := by
  intro rx dsp
  exact ⟨map_decode_jumps (word1 0xA0 · 0) dsp _ (decode_jumpDrct · dsp),
    map_decode_jumps (word1 0xA1 · rx) dsp _ (decode_jumpIndex · rx dsp)⟩

/-- Settles O54: each sample is the encoding of its instruction, which decodes to it. -/
theorem sampleWordsDecode : Obligations.SampleWordsDecode :=
  ⟨decodeOfEncode (.ldImm4 (.gen .g1) 5) rfl, decodeOfEncode (.ldDrct (.gen .g2) 0x1000) rfl,
    decodeOfEncode (.stIndr (.gen .g1) (.gen .g2)) rfl, decodeOfEncode (.andImm (.gen .g0) 0x00FF) rfl,
    decodeOfEncode (.shraImm4 (.gen .g1) 2) rfl, decodeOfEncode (.jnzDrct 0x0104) rfl,
    decodeOfEncode (.inBIndr (.gen .g1) (.gen .g2)) rfl, decodeOfEncode (.pop (.gen .g2)) rfl,
    decodeOfEncode .reti rfl⟩

end Sys2Proof
end

section
/-! The empty cells of the opcode map (30_encoding.md R100, R103). -/

namespace Sys2Proof

/-- The columns of a row of the opcode map whose cells are filled, those of A6h and AEh among them. -/
def filledColumns : Nat → List Nat
  | 0x00 | 0x1E => [0]
  | 0x02 => [0, 1, 3, 6, 7]
  | 0x14 | 0x15 => [0, 1, 6]
  | 0x16 | 0x17 => [0, 6, 7]
  | 0x18 | 0x1A => [0, 4]
  | 0x1F => [7]
  | 0x01 | 0x03 | 0x04 | 0x05 | 0x06 | 0x07 | 0x08 | 0x09 | 0x0A | 0x0B | 0x0C | 0x10 | 0x11 | 0x12 | 0x13 =>
    [0, 1, 2, 3, 4, 5, 6, 7]
  | _ => []

section
variable {w1 w2 : Word} {mode : Nat} {rd rx : BitVec 4}

/-- A reserved field value is not an undefined instruction (30_encoding.md R104). -/
theorem guarded_ne_undefined {c : Prop} [Decidable c] {i : Instr} :
    (if c then Decoded.instr i else .reserved) ≠ .undefined := by
  split <;> exact Decoded.noConfusion

theorem decodeEa_ne_undefined {op : EaOp} : decodeEa op mode rd rx w2 ≠ .undefined := by
  unfold decodeEa
  split <;> exact Decoded.noConfusion

theorem decodeSt_eq_undefined_iff (hm : mode < 8) :
    decodeSt mode rd rx w2 = .undefined ↔ mode ∉ [0, 1, 3, 6, 7] := by
  match mode, hm with
  | 0, _ => simp [decodeSt_drct, guarded_ne_undefined]
  | 1, _ | 2, _ | 3, _ | 4, _ | 5, _ | 6, _ | 7, _ => simp [decodeSt, Ea.ofMode]

theorem decodeJump_eq_undefined_iff (hm : mode < 8) :
    decodeJump w1 mode rd rx w2 = .undefined ↔ mode ∉ [0, 1, 6] := by
  match mode, hm with
  | 0, _ | 1, _ => cases hk : Cond.ofNibble rd <;> simp [decodeJump, hk, guarded_ne_undefined]
  | 2, _ | 3, _ | 4, _ | 5, _ | 6, _ | 7, _ => simp [decodeJump]

theorem decodeCall_eq_undefined_iff (hm : mode < 8) :
    decodeCall w1 mode rd rx w2 = .undefined ↔ mode ∉ [0, 1, 6] := by
  interval_cases mode <;> simp [decodeCall, guarded_ne_undefined]

theorem decodeIn_eq_undefined_iff (hm : mode < 8) :
    decodeIn mode rd rx w2 = .undefined ↔ mode ∉ [0, 6, 7] := by
  interval_cases mode <;> simp [decodeIn, guarded_ne_undefined]

theorem decodeOut_eq_undefined_iff (hm : mode < 8) :
    decodeOut mode rd rx w2 = .undefined ↔ mode ∉ [0, 6, 7] := by
  interval_cases mode <;> simp [decodeOut, guarded_ne_undefined]

theorem decodeEa_eq_undefined_iff {op : EaOp} (hm : mode < 8) :
    decodeEa op mode rd rx w2 = .undefined ↔ mode ∉ [0, 1, 2, 3, 4, 5, 6, 7] := by
  refine iff_of_false decodeEa_ne_undefined ?_
  interval_cases mode <;> decide

theorem decodeFields_eq_undefined_iff {op5 : Nat} (h5 : op5 < 32) (hm : mode < 8) :
    decodeFields w1 op5 mode rd rx w2 = .undefined ↔ mode ∉ filledColumns op5 :=
  match op5, h5 with
  | 0x02, _ => decodeSt_eq_undefined_iff hm
  | 0x14, _ => decodeJump_eq_undefined_iff hm
  | 0x15, _ => decodeCall_eq_undefined_iff hm
  | 0x16, _ => decodeIn_eq_undefined_iff hm
  | 0x17, _ => decodeOut_eq_undefined_iff hm
  | 0x01, _ | 0x03, _ | 0x04, _ | 0x05, _ | 0x06, _ | 0x07, _ | 0x08, _ | 0x09, _ | 0x0A, _ | 0x0B, _ | 0x0C, _
  | 0x10, _ | 0x11, _ | 0x12, _ | 0x13, _ => decodeEa_eq_undefined_iff hm
  | 0x00, _ | 0x1E, _ =>
    match mode, hm with
    | 0, _ => iff_of_false guarded_ne_undefined (by decide)
    | 1, _ | 2, _ | 3, _ | 4, _ | 5, _ | 6, _ | 7, _ => iff_of_true rfl (by decide)
  | 0x18, _ | 0x1A, _ =>
    match mode, hm with
    | 0, _ | 4, _ => iff_of_false guarded_ne_undefined (by decide)
    | 1, _ | 2, _ | 3, _ | 5, _ | 6, _ | 7, _ => iff_of_true rfl (by decide)
  | 0x1F, _ =>
    match mode, hm with
    | 7, _ => iff_of_false guarded_ne_undefined (by decide)
    | 0, _ | 1, _ | 2, _ | 3, _ | 4, _ | 5, _ | 6, _ => iff_of_true rfl (by decide)
  | 0x0D, _ | 0x0E, _ | 0x0F, _ | 0x19, _ | 0x1B, _ | 0x1C, _ | 0x1D, _ => iff_of_true rfl List.not_mem_nil
  | _ + 32, h => absurd h (by omega)

end

/-- Settles O52: a word is undefined if its column is none of its row's, and there are 256 OP bytes. -/
theorem undefinedOpBytes : Obligations.UndefinedOpBytes := by
  intro w1 w2
  rw [decode, decodeFields_eq_undefined_iff (op5Of_lt w1) (modeOf_lt w1), modeOf_eq, op5Of_eq]
  generalize w1.extractLsb' 8 8 = op
  revert op
  decide

end Sys2Proof
end

section
/-! Operand evaluation (30_encoding.md R97), and the step at the OP bytes A6h and AEh (R105). -/

namespace Sys2Proof.Machine

/-! ### The value of an operand form (30_encoding.md R97) -/

theorem State.value_word {s : State} {m : MemEa} (hword : isByteForm m = false) (h : s.wordReadable (s.addr m)) :
    s.value (.mem m) = .ok (s.wordAt (s.addr m)) := by
  simp only [State.value, State.memValue, hword, Bool.false_eq_true, if_false]
  exact State.readWord_readable h

theorem State.value_byte {s : State} {m : MemEa} (hbyte : isByteForm m = true) (h : s.mmuOn = false) :
    s.value (.mem m) = .ok ((s.byteAt (s.addr m)).setWidth 16) := by
  simp only [State.value, State.memValue, hbyte, if_true, State.readByte_mmuOff _ h]

/-- The byte displacement of an FP-relative field is twice the field, sign-extended (30_encoding.md R96). -/
theorem ofInt_dsp4Of (n : BitVec 4) : BitVec.ofInt 16 (dsp4Of n) = n.signExtend 16 * 2 := by
  revert n
  decide

theorem State.addr_fpRlt (s : State) (n : BitVec 4) :
    s.addr (.fpRlt (dsp4Of n)) = n.signExtend 16 * 2 + s.readReg (.gen .fp) := by
  rw [State.addr, ofInt_dsp4Of]

/-- Settles O4: the memory forms read at their address, a word or in mode 7 a byte; the others are their own values. -/
theorem operandValues : Obligations.OperandValues := by
  intro s w n r
  refine ⟨?drct, ?index, rfl, ?fpRlt, rfl, rfl, ?indr, ?bIndr⟩
  case drct => exact State.value_word (m := .drct w) rfl
  case index => exact State.value_word (m := .index w r) rfl
  case fpRlt => exact State.addr_fpRlt s n ▸ State.value_word (m := .fpRlt (dsp4Of n)) rfl
  case indr => exact State.value_word (m := .indr r) rfl
  case bIndr => exact State.value_byte (m := .bIndr r) rfl

/-! ### The OP bytes A6h and AEh (30_encoding.md R105) -/

theorem decode_jumpIndr (rd rx : BitVec 4) (w2 : Word) :
    decode (word1 0xA6 rd rx) w2 = .indirect (word1 0xA6 rd rx) := decode_word1 0xA6 rd rx w2

theorem decode_callIndr (rd rx : BitVec 4) (w2 : Word) :
    decode (word1 0xAE rd rx) w2 = .indirect (word1 0xAE rd rx) := decode_word1 0xAE rd rx w2

/-- A quiet step at an OP byte that JUMP_INDR governs. -/
theorem step_indirect {s : State} {w1 : Word} (hquiet : s.quiet) (hpc : s.wordReadable s.pc)
    (h : decode (s.wordAt s.pc) (s.wordAt (s.pc + 2)) = .indirect w1) : step s = s.openByte w1 := by
  have hfetch : s.fetch = .ok (.indirect w1) := by rw [State.fetch_readable hpc, h]
  rw [step_quiet hquiet]
  simp only [State.runInstruction, hfetch]

section
variable {s : State} (rd rx : BitVec 4)

theorem State.openByte_refuse (w1 : Word) (h : s.params.jumpIndr = .refuse) :
    s.openByte w1 = .refused (.jumpIndr w1) := by simp only [State.openByte, h]

theorem State.openByte_undefined (w1 : Word) (h : s.params.jumpIndr = .undefined) :
    s.openByte w1 = s.raise .undefinedInstruction (s.pc + 2) := by simp only [State.openByte, h]; rfl

theorem State.openByte_jump {k : Cond} (h : s.params.jumpIndr = .jump) (hk : Cond.ofNibble rd = some k) :
    s.openByte (word1 0xA6 rd rx) = s.jump k (.indr (Reg.ofNibble rx)) := by
  obtain ⟨hrow, -, hrd, hrx⟩ := fields_word1 0xA6 rd rx
  have hjump : op5Of (word1 0xA6 rd rx) = 0x14 := hrow
  simp only [State.openByte, h, hjump, hrd, hrx, hk, if_true]

theorem State.openByte_call (h : s.params.jumpIndr = .jump) :
    s.openByte (word1 0xAE 0 rx) = s.call (.indr (Reg.ofNibble rx)) := by
  obtain ⟨hrow, -, hrd, hrx⟩ := fields_word1 0xAE 0 rx
  have hcall : op5Of (word1 0xAE 0 rx) = 0x15 := hrow
  have hne : (0x15 : Nat) ≠ 0x14 := by decide
  simp only [State.openByte, h, hcall, hrd, hrx, if_neg hne, if_true]

end

theorem State.readReg_writeReg (s : State) {r : Reg} (v : Word) (h : r ≠ .flag) : (s.writeReg r v).readReg r = v := by
  rw [State.readReg, State.writeReg_flag_of_ne s r v h, State.peek_writeReg s r v h]

/-- CALL where its return address can be pushed (43_jump_call.md R217). -/
theorem State.call_writable {s : State} (m : MemEa) (h : s.wordWritable (s.readReg .sp - 2)) :
    s.call m = .next (((s.storeWord (s.readReg .sp - 2) (s.npcMem m)).writeReg .sp (s.readReg .sp - 2)).goto
      (s.addr m)) := by
  rw [State.call, State.push_writable _ h]

/-- A word pushed is read back from its place. -/
theorem State.wordAt_pushed {s : State} {a : Word} (v sp pc : Word) (h : s.wordWritable a) :
    (((s.storeWord a v).writeReg .sp sp).goto pc).wordAt a = v := by
  obtain ⟨⟨-, heven⟩, hcovers⟩ := h
  rw [State.wordAt_congr (s.storeWord a v) _ (by simp) (by simp) (by simp), State.wordAt_storeWord s a v heven hcovers]

/-- Settles O41: the word at pc decodes to the OP byte itself, and what that does is what JUMP_INDR says. -/
theorem openOpBytesFollowParameter : Obligations.OpenOpBytesFollowParameter := by
  intro s rd rx hquiet hpc
  have hA6 : s.wordAt s.pc = word1 0xA6 rd rx → step s = s.openByte (word1 0xA6 rd rx) := fun hw =>
    step_indirect hquiet hpc (by rw [hw, decode_jumpIndr])
  have hAE : s.wordAt s.pc = word1 0xAE rd rx → step s = s.openByte (word1 0xAE rd rx) := fun hw =>
    step_indirect hquiet hpc (by rw [hw, decode_callIndr])
  refine ⟨fun hw => ?either, fun hw hparam k hk => ?jump, fun hw hparam hrd hslot => ?call⟩
  case either =>
    have hstep : step s = s.openByte (s.wordAt s.pc) :=
      hw.elim (fun h => (hA6 h).trans (congrArg _ h.symm)) (fun h => (hAE h).trans (congrArg _ h.symm))
    exact ⟨fun h => hstep.trans (State.openByte_refuse _ h), fun h => hstep.trans (State.openByte_undefined _ h)⟩
  case jump => exact (hA6 hw).trans (State.openByte_jump rd rx hparam hk)
  case call =>
    subst hrd
    rw [hAE hw, State.openByte_call rx hparam]
    exact ⟨_, State.call_writable _ hslot, rfl, State.readReg_writeReg _ _ (by decide),
      State.wordAt_pushed _ _ _ hslot⟩

end Sys2Proof.Machine
end

section
/-! No operation, load and store (40_no_ld_st.md): the words of row 0 of the opcode map, LD where its operand has a value,
ST where its access can be made, and what the two leave unchanged. -/

namespace Sys2Proof.Machine

/-! ### NO (40_no_ld_st.md R131) -/

/-- The OP byte 00h spells NO, with both its fields fixed to 0h. -/
theorem decode_no (rd rx : BitVec 4) (w2 : Word) : decode (word1 0x00 rd rx) w2 = decodeFixed rd rx 0 .no :=
  decode_word1 0x00 rd rx w2

/-- Settles O1: a word with the OP byte 00h is its two fields, and NO is the one where both are 0h. -/
theorem noOnlyAdvancesPc : Obligations.NoOnlyAdvancesPc := by
  refine ⟨fun w2 => decode_no 0 0 w2, fun w1 w2 hop hne => ?reserved, fun s => rfl⟩
  case reserved =>
    have hw : word1 0x00 (rdField w1) (rxField w1) = w1 := hop ▸ word1_fields w1
    have hfields : ¬ (rdField w1 = 0 ∧ rxField w1 = 0) := by
      rintro ⟨hrd, hrx⟩
      rw [hrd, hrx] at hw
      exact hne hw.symm
    rw [← hw, decode_no]
    exact if_neg hfields

/-! ### LD (40_no_ld_st.md R132) -/

/-- LD where the operand has a value. -/
theorem exec_ld_value (rd : Reg) {ea : Ea} {s : State} {v : Word} (h : s.value ea = .ok v) :
    exec (Instr.ofEa .ld rd ea) s = .next ((s.writeReg rd v).goto (s.npcEa ea)) :=
  exec_ea_value .ld rd ea s v (.inl rfl) h (by simp)

section
variable (s : State) (r : Reg) (v pc : Word)

/-- A register write, FLAG's among them, and the advance of pc keep the memory. -/
theorem MemoryKept.writeReg_goto : MemoryKept s ((s.writeReg r v).goto pc) :=
  MemoryKept.of_eq (State.writeReg_mem s r v) (State.writeReg_rom s r v) (State.writeReg_iplAttached s r v)

/-- A register write, FLAG's among them, and the advance of pc keep the memory system, the devices and the trace. -/
theorem SystemAndTraceKept.writeReg_goto : SystemAndTraceKept s ((s.writeReg r v).goto pc) := by
  refine ⟨?_, State.writeReg_trace s r v⟩
  constructor <;> simp

end

/-- Settles O3: LD writes FLAG by `FlagWrite`, whose word is known by the mode; no register or stack pointer is FLAG. -/
theorem loadToFlag : Obligations.LoadToFlag := by
  intro ea s v hv
  obtain ⟨-, -, hwrite⟩ := flagWordAndFlagWrite s.flag v
  exact ⟨_, exec_ld_value .flag hv, hwrite, RegistersKept.of_eq rfl rfl rfl, rfl, MemoryKept.writeReg_goto s .flag v _,
    SystemAndTraceKept.writeReg_goto s .flag v _⟩

/-- Settles O2: LD is one register write and the advance of pc. -/
theorem loadWritesOperand : Obligations.LoadWritesOperand := by
  intro rd ea s v hrd hv
  have hpeek : ((s.writeReg rd v).goto (s.npcEa ea)).peek (homeOf rd s.flag.p) = v :=
    (State.peek_congr _ _ rfl rfl rfl _ (homeOf_ne_flag rd _ hrd)).trans (State.peek_writeReg s rd v hrd)
  exact ⟨_, exec_ld_value rd hv, hpeek, (RegistersKeptBut.writeReg s rd v).of_eq rfl rfl rfl,
    State.writeReg_flag_of_ne s rd v hrd, rfl, MemoryKept.writeReg_goto s rd v _,
    SystemAndTraceKept.writeReg_goto s rd v _⟩

/-! ### ST (40_no_ld_st.md R133) -/

section
variable {s : State} {m : MemEa}

theorem State.storeValue_word (v : Word) (hword : isByteForm m = false) (h : s.wordWritable (s.addr m)) :
    s.storeValue m v = .ok (s.storeWord (s.addr m) v) := by
  simp only [State.storeValue, hword, Bool.false_eq_true, if_false, State.writeWord_writable v h]

theorem State.storeValue_byte (v : Word) (hbyte : isByteForm m = true) (h : s.byteWritable (s.addr m)) :
    s.storeValue m v = .ok (s.storeByte (s.addr m) (lowByte v)) := by
  simp only [State.storeValue, hbyte, if_true, State.writeByte_writable _ h]

/-- ST where its store can be made. -/
theorem exec_st_stored {rd : Reg} {t : State} (h : s.storeValue m (s.readReg rd) = .ok t) :
    exec (Instr.ofSt rd m) s = .next (t.goto (s.npcMem m)) := by
  rw [exec_st, State.store, h]

end

/-- A change of the RAM and the advance of pc keep the memory system, the devices and the trace. -/
theorem SystemAndTraceKept.setMem_goto (s : State) (ram : Memory) (pc : Word) :
    SystemAndTraceKept s (({ s with mem := ram } : State).goto pc) := by
  refine ⟨?_, rfl⟩
  constructor <;> rfl

theorem MemoryKeptButWord.storeWord {s : State} {a : Word} (v : Word) (h : s.wordWritable a) :
    MemoryKeptButWord a s (s.storeWord a v) := by
  obtain ⟨⟨-, heven⟩, hcovers⟩ := h
  intro b hb hb1
  rw [State.byteAt_storeWord s a b v heven hcovers, if_neg hb1, if_neg hb]

/-- Settles O5: ST is one store of a word or a byte and the advance of pc. -/
theorem storeWritesMemory : Obligations.StoreWritesMemory := by
  intro rd m s
  refine ⟨fun hword hslot => ?word, fun hbyte hslot => ?byte⟩
  case word =>
    have hstore := exec_st_stored (State.storeValue_word (s.readReg rd) hword hslot)
    have ⟨⟨_, heven⟩, hcovers⟩ := hslot
    exact ⟨_, hstore, State.wordAt_storeWord s _ _ heven hcovers, MemoryKeptButWord.storeWord _ hslot,
      RegistersKept.of_eq rfl rfl rfl, rfl, rfl, SystemAndTraceKept.setMem_goto s _ _⟩
  case byte =>
    have hstore := exec_st_stored (State.storeValue_byte (s.readReg rd) hbyte hslot)
    have ⟨_, hcovers⟩ := hslot
    have hbytes := fun a => State.byteAt_storeByte s (s.addr m) a (lowByte (s.readReg rd)) hcovers
    exact ⟨_, hstore, (hbytes _).trans (if_pos rfl), fun a ha => (hbytes a).trans (if_neg ha),
      RegistersKept.of_eq rfl rfl rfl, rfl, rfl, SystemAndTraceKept.setMem_goto s _ _⟩

end Sys2Proof.Machine
end

section
/-! Arithmetic and logic (41_arith_logic.md): the results of ADD to MOD with their flags and frames, what the flags of
ADD, SUB and CMP say of the numbers, and the refusal of FLAG as Rd. -/

namespace Sys2Proof.Machine

/-! ### The sign bit and the flags of a result (41_arith_logic.md R151) -/

/-- The sign of a word is its bit 15. -/
theorem word_msb (w : Word) : w.msb = w.getLsbD 15 := BitVec.msb_eq_getLsbD_last w

theorem Flag.setCV_setZS (f : Flag) (r : Word) (c v : Bool) :
    (f.setZS r).setCV c v = f.withVCSZ v c (r.getLsbD 15) (decide (r = 0)) := by
  rw [← word_msb]; rfl

theorem addOverflow_bits (a b : Word) :
    addOverflow a b = ((a.getLsbD 15 == b.getLsbD 15) && ((a + b).getLsbD 15 != a.getLsbD 15)) := by
  simp only [addOverflow, word_msb]

theorem subOverflow_bits (a b : Word) :
    subOverflow a b = ((a.getLsbD 15 != b.getLsbD 15) && ((a - b).getLsbD 15 != a.getLsbD 15)) := by
  simp only [subOverflow, word_msb]

/-! ### What V, C, Z and S say of the two numbers (41_arith_logic.md R154, R162) -/

theorem addOverflow_iff (a b : Word) :
    addOverflow a b = true ↔ a.toInt + b.toInt < -32768 ∨ 32767 < a.toInt + b.toInt := by
  have hadd : addOverflow a b = a.saddOverflow b := (BitVec.saddOverflow_eq a b).symm
  rw [hadd, BitVec.saddOverflow, Bool.or_eq_true, decide_eq_true_iff, decide_eq_true_iff]
  omega

/-- The overflow of a difference is read off the three signs. -/
theorem subOverflow_eq_ssubOverflow (a b : Word) : subOverflow a b = a.ssubOverflow b := by
  rw [BitVec.ssubOverflow_eq, subOverflow]
  cases a.msb <;> cases b.msb <;> simp

theorem subOverflow_iff (a b : Word) :
    subOverflow a b = true ↔ a.toInt - b.toInt < -32768 ∨ 32767 < a.toInt - b.toInt := by
  rw [subOverflow_eq_ssubOverflow, BitVec.ssubOverflow, Bool.or_eq_true, decide_eq_true_iff, decide_eq_true_iff]
  omega

theorem addCarry_iff (a b : Word) : addCarry a b = true ↔ 65535 < a.toNat + b.toNat := by
  rw [addCarry, decide_eq_true_iff]
  omega

theorem subBorrow_iff (a b : Word) : subBorrow a b = true ↔ a.toNat < b.toNat := decide_eq_true_iff

/-- The sign of a difference is that of the true difference, unless it overflows; then the operands have different signs
and the sign of the result is that of the second. -/
theorem sign_xor_subOverflow_iff (a b : Word) :
    ((a - b).msb ^^ subOverflow a b) = true ↔ a.toInt < b.toInt := by
  cases hv : subOverflow a b with
  | false =>
    have hdiff : (a - b).toInt = a.toInt - b.toInt :=
      BitVec.toInt_sub_of_not_ssubOverflow (by rw [← subOverflow_eq_ssubOverflow, hv]; decide)
    rw [Bool.xor_false, BitVec.msb_eq_toInt, hdiff, decide_eq_true_iff]
    omega
  | true =>
    obtain ⟨hoperands, hresult⟩ : a.msb ≠ b.msb ∧ (a - b).msb ≠ a.msb := by simpa [subOverflow] using hv
    have hsign : ((a - b).msb ^^ true) = a.msb := by rw [Bool.xor_true, Bool.eq_not_of_ne hresult, Bool.not_not]
    rw [hsign, BitVec.msb_eq_toInt, decide_eq_true_iff]
    rw [BitVec.msb_eq_toInt, BitVec.msb_eq_toInt, ne_eq, decide_eq_decide] at hoperands
    omega

/-! ### The results as numbers (41_arith_logic.md R158 to R161) -/

theorem addScaled_toNat (a b : Word) : (addScaled a b).toNat = (a.toNat + 2 * b.toNat) % 2 ^ 16 :=
  BitVec.toNat_ofNat _ 16

theorem product_toNat (a b : Word) : (product a b).toNat = a.toNat * b.toNat % 2 ^ 16 := BitVec.toNat_ofNat _ 16

/-- Both operands are in 0000h to 7FFFh, as the model of DIV and MOD asks it. -/
theorem signs_clear_iff (a b : Word) : (!a.msb && !b.msb) = true ↔ a.toNat < 2 ^ 15 ∧ b.toNat < 2 ^ 15 := by
  rw [Bool.and_eq_true, Bool.not_eq_true', Bool.not_eq_true', BitVec.msb_eq_false_iff_two_mul_lt,
    BitVec.msb_eq_false_iff_two_mul_lt]
  omega

/-- What a result of DIV or MOD is: the number `n` where both operands are in the defined range, the configured word
`w` elsewhere. -/
def RangedResult (a b : Word) (n : Nat) (w r : Word) : Prop :=
  if a.toNat < 2 ^ 15 ∧ b.toNat < 2 ^ 15 then r.toNat = n else r = w

theorem RangedResult.of_signs {a b : Word} {n : Nat} (w : Word) (hn : n ≤ a.toNat) :
    RangedResult a b n w (if !a.msb && !b.msb then BitVec.ofNat 16 n else w) := by
  simp only [RangedResult, signs_clear_iff]
  split
  · rw [BitVec.toNat_ofNat, Nat.mod_eq_of_lt (by omega)]
  · rfl

theorem RangedResult.quotient (a b : Word) :
    RangedResult a b (a.toNat / b.toNat) (Config.divFn a b) (quotient a b) := .of_signs _ (Nat.div_le_self _ _)

theorem RangedResult.remainder (a b : Word) :
    RangedResult a b (a.toNat % b.toNat) (Config.modFn a b) (remainder a b) := .of_signs _ (Nat.mod_le _ _)

/-! ### What an arithmetic instruction leaves when it completes -/

section
variable {op : EaOp} {rd : Reg} {ea : Ea} {s : State} {b r : Word}

theorem ActFrame.registersKept {t : State} (h : ActFrame rd s t) (pc : Word) :
    RegistersKeptBut (homeOf rd s.flag.p) s (t.goto pc) := h.registers.of_eq rfl rfl rfl

/-- What is read back of Rd once the flags and pc have been changed after its write. -/
theorem State.peek_written {t : State} (hrd : rd ≠ .flag) (hregs : t.regs = (s.writeReg rd r).regs)
    (hssp : t.ssp = (s.writeReg rd r).ssp) (husp : t.usp = (s.writeReg rd r).usp) :
    t.peek (homeOf rd s.flag.p) = r :=
  (State.peek_congr _ t hregs hssp husp _ (homeOf_ne_flag rd _ hrd)).trans (State.peek_writeReg s rd r hrd)

/-- An instruction that writes its result and sets all four flags: ADD and SUB. -/
theorem exec_result_flagged {c v : Bool} (hrd : rd ≠ .flag) (hb : s.value ea = .ok b)
    (hz : op = .div ∨ op = .mod → b ≠ 0)
    (hact : EaOp.act rd op s (s.readReg rd) b = ((s.writeReg rd r).setZS r).setCV c v) :
    ∃ t, exec (Instr.ofEa op rd ea) s = .next t ∧
      (t.peek (homeOf rd s.flag.p) = r ∧ t.flag = s.flag.withVCSZ v c (r.getLsbD 15) (decide (r = 0))) ∧
      RegistersKeptBut (homeOf rd s.flag.p) s t ∧ t.pc = s.pc + eaBytes ea ∧ MemoryKept s t ∧
      SystemAndTraceKept s t := by
  have hframe := ActFrame.of_act op rd s (s.readReg rd) b hrd
  have hexec := exec_ea_value op rd ea s b (.inr hrd) hb hz
  rw [hact] at hframe hexec
  have hflag : (((s.writeReg rd r).setZS r).setCV c v).flag =
      s.flag.withVCSZ v c (r.getLsbD 15) (decide (r = 0)) := by
    rw [State.setCV_flag, State.setZS_flag, State.writeReg_flag_of_ne s rd r hrd, Flag.setCV_setZS]
  exact ⟨_, hexec, ⟨State.peek_written hrd rfl rfl rfl, hflag⟩, hframe.registersKept _, rfl, hframe.memoryKept _,
    hframe.systemKept _⟩

/-- An instruction that writes its result, sets Z and S by it and draws C and V. -/
theorem exec_result_drawn (hrd : rd ≠ .flag) (hb : s.value ea = .ok b) (hz : op = .div ∨ op = .mod → b ≠ 0)
    (hact : EaOp.act rd op s (s.readReg rd) b = s.resultDrawn rd r) :
    ∃ t, exec (Instr.ofEa op rd ea) s = .next t ∧ t.peek (homeOf rd s.flag.p) = r ∧ t.flag.z = decide (r = 0) ∧
      t.flag.s = r.getLsbD 15 ∧ ModeKept s t ∧ RegistersKeptBut (homeOf rd s.flag.p) s t ∧
      t.pc = s.pc + eaBytes ea ∧ MemoryKept s t ∧ SystemAndTraceKept s t := by
  have hframe := ActFrame.resultDrawn rd s r hrd
  have hexec := exec_ea_value op rd ea s b (.inr hrd) hb hz
  rw [hact] at hexec
  exact ⟨_, hexec, State.peek_written hrd rfl rfl rfl, rfl, word_msb r, hframe.mode, hframe.registersKept _, rfl,
    hframe.memoryKept _, hframe.systemKept _⟩

/-- As `exec_result_drawn`, where the result is known by what it satisfies. -/
theorem exec_result_drawn_of (P : Word → Prop) (hP : P r) (hrd : rd ≠ .flag) (hb : s.value ea = .ok b)
    (hz : op = .div ∨ op = .mod → b ≠ 0) (hact : EaOp.act rd op s (s.readReg rd) b = s.resultDrawn rd r) :
    ∃ t, exec (Instr.ofEa op rd ea) s = .next t ∧
      (P (t.peek (homeOf rd s.flag.p)) ∧ t.flag.z = decide (t.peek (homeOf rd s.flag.p) = 0) ∧
        t.flag.s = (t.peek (homeOf rd s.flag.p)).getLsbD 15) ∧
      ModeKept s t ∧ RegistersKeptBut (homeOf rd s.flag.p) s t ∧ t.pc = s.pc + eaBytes ea ∧ MemoryKept s t ∧
      SystemAndTraceKept s t := by
  obtain ⟨t, hexec, hr, hzero, hsign, hframe⟩ := exec_result_drawn hrd hb hz hact
  rw [← hr] at hP hzero hsign
  exact ⟨t, hexec, ⟨hP, hzero, hsign⟩, hframe⟩

end

/-! ### ADD, SUB and CMP (41_arith_logic.md R152 to R154, R162) -/

/-- Settles O6: ADD writes its sum and sets all four flags by the model's formulas, which are those of the statement. -/
theorem addResult : Obligations.AddResult := by
  intro rd ea s b hrd hb
  have hadd := exec_result_flagged (op := .add) hrd hb (by simp) rfl
  rw [addOverflow_bits] at hadd
  exact hadd

/-- Settles O7: as ADD, with the difference, its borrow and its overflow. -/
theorem subResult : Obligations.SubResult := by
  intro rd ea s b hrd hb
  have hsub := exec_result_flagged (op := .sub) hrd hb (by simp) rfl
  rw [subOverflow_bits] at hsub
  exact hsub

/-- CMP where its operand has a value. -/
theorem exec_cmp_value {rd : Reg} {ea : Ea} {s : State} {b : Word} (hrd : rd ≠ .flag) (hb : s.value ea = .ok b) :
    exec (Instr.ofEa .cmp rd ea) s = .next ((s.cmpAct (s.readReg rd) b).goto (s.npcEa ea)) :=
  exec_ea_value .cmp rd ea s b (.inr hrd) hb (by simp)

/-- Settles O8: CMP changes FLAG and pc only, and each relation of the operands is a fact about the flag formulas. -/
theorem cmpResult : Obligations.CmpResult := by
  intro rd ea s b hrd hb
  have hframe : ActFrame rd s (s.cmpAct (s.readReg rd) b) := ActFrame.of_act .cmp rd s (s.readReg rd) b hrd
  refine ⟨_, exec_cmp_value hrd hb, ⟨?flags, ?equal, subBorrow_iff _ _, sign_xor_subOverflow_iff _ _⟩,
    RegistersKept.of_eq rfl rfl rfl, rfl, hframe.memoryKept _, hframe.systemKept _⟩
  case flags =>
    rw [← subOverflow_bits]
    exact Flag.setCV_setZS s.flag _ _ _
  case equal => exact decide_eq_true_iff.trans sub_eq_zero

/-- Settles O14: V and C after ADD and SUB are the overflow, carry and borrow of the operands, and each of these says
when the true sum or difference is out of its range. -/
theorem overflowFlagsMeanOverflow : Obligations.OverflowFlagsMeanOverflow := by
  intro rd ea s b hrd hb a
  refine ⟨⟨_, exec_ea_value .add rd ea s b (.inr hrd) hb (by simp), addOverflow_iff a b, addCarry_iff a b⟩,
    ⟨_, exec_ea_value .sub rd ea s b (.inr hrd) hb (by simp), subOverflow_iff a b,
      (subBorrow_iff a b).trans ?borrow⟩⟩
  case borrow => omega

/-! ### AND to MOD (41_arith_logic.md R155 to R161) -/

/-- Settles O9: each of the three writes its bitwise result with C and V drawn. -/
theorem logicResults : Obligations.LogicResults := by
  rintro op f (⟨rfl, rfl⟩ | ⟨rfl, rfl⟩ | ⟨rfl, rfl⟩) rd ea s b hrd hb
  case inl => exact exec_result_drawn (op := .and) hrd hb (by simp) rfl
  case inr.inl => exact exec_result_drawn (op := .or) hrd hb (by simp) rfl
  case inr.inr => exact exec_result_drawn (op := .xor) hrd hb (by simp) rfl

/-- Settles O10: both write a result with C and V drawn, and its number is known. -/
theorem scaleAndMultiplyResults : Obligations.ScaleAndMultiplyResults := by
  rintro op f (⟨rfl, rfl⟩ | ⟨rfl, rfl⟩) rd ea s b hrd hb
  case inl =>
    exact exec_result_drawn_of (op := .adds) (·.toNat = ((s.readReg rd).toNat + 2 * b.toNat) % 2 ^ 16)
      (addScaled_toNat _ _) hrd hb (by simp) rfl
  case inr =>
    exact exec_result_drawn_of (op := .mul) (·.toNat = (s.readReg rd).toNat * b.toNat % 2 ^ 16)
      (product_toNat _ _) hrd hb (by simp) rfl

/-- Settles O11: by a nonzero divisor both write a result with C and V drawn, and it is the number or the configuration
function by the range of the operands. -/
theorem divideResults : Obligations.DivideResults := by
  rintro op f g (⟨rfl, rfl, rfl⟩ | ⟨rfl, rfl, rfl⟩) rd ea s b hrd hb hne
  case inl =>
    exact exec_result_drawn_of (op := .div) (RangedResult (s.readReg rd) b _ _) (.quotient _ _) hrd hb
      (fun _ => hne) rfl
  case inr =>
    exact exec_result_drawn_of (op := .mod) (RangedResult (s.readReg rd) b _ _) (.remainder _ _) hrd hb
      (fun _ => hne) rfl

/-! ### FLAG as Rd (41_arith_logic.md R150, 42_shift.md R180) -/

theorem State.operate_flag (s : State) (ea : Ea) (act : State → Word → Word → State) :
    s.operate .flag ea act = .refused .flagDestination := if_pos rfl

theorem State.divide_flag (s : State) (ea : Ea) (result : Word → Word → Word) :
    s.divide .flag ea result = .refused .flagDestination := if_pos rfl

/-- Settles O13: every eight-mode instruction but LD is one of the two shapes, and both refuse FLAG first. -/
theorem flagDestinationRefused : Obligations.FlagDestinationRefused := by
  intro op ea s hld
  by_cases hdiv : op = .div
  · rw [hdiv, exec_div, State.divide_flag]
  by_cases hmod : op = .mod
  · rw [hmod, exec_mod, State.divide_flag]
  rw [exec_operate op .flag ea s ⟨hld, hdiv, hmod⟩, State.operate_flag]

end Sys2Proof.Machine
end

section
/-! Shifts (42_shift.md): the results for counts of 0 to 15 as numbers, and the frame for larger counts. -/

namespace Sys2Proof.Machine

/-! ### The results as numbers (42_shift.md R181 to R184) -/

theorem shiftLeft_toNat (a : Word) (n : Nat) : (shiftLeft a n).toNat = a.toNat * 2 ^ n % 2 ^ 16 :=
  BitVec.toNat_ofNat _ 16

theorem shiftRightArith_eq_sshiftRight (a : Word) (n : Nat) : shiftRightArith a n = a.sshiftRight n := by
  simp only [shiftRightArith, BitVec.sshiftRight, Int.shiftRight_eq_div_pow, Nat.cast_pow, Nat.cast_ofNat]

/-- The rounded quotient is in the range of a signed word, as the library's arithmetic shift has it. -/
theorem shiftRightArith_toInt (a : Word) (n : Nat) : (shiftRightArith a n).toInt = a.toInt / 2 ^ n := by
  rw [shiftRightArith_eq_sshiftRight, BitVec.toInt_sshiftRight, Int.shiftRight_eq_div_pow, Nat.cast_pow, Nat.cast_ofNat]

theorem shiftRightLogic_toNat (a : Word) (n : Nat) : (shiftRightLogic a n).toNat = a.toNat / 2 ^ n := by
  rw [shiftRightLogic, BitVec.toNat_ofNat, Nat.mod_eq_of_lt ((Nat.div_le_self _ _).trans_lt a.isLt)]

/-! ### The writes of a shift by the range of its count (42_shift.md R180) -/

/-- Only a count of 0 to 15 has the result of the operation. -/
theorem State.shiftAct_small {n : Word} (rd : Reg) (f : Word → Nat → Word) (s : State) (a : Word) (hn : n.toNat ≤ 15) :
    State.shiftAct rd f s a n = s.resultDrawn rd (f a n.toNat) := if_pos hn

/-! ### The shifts by 0 to 15 (42_shift.md R181 to R184) -/

/-- Settles O15: SHLA and SHLL are one operation; it writes the product modulo 2^16 with C and V drawn. -/
theorem shiftLeftResults : Obligations.ShiftLeftResults := by
  intro op hop rd ea s n hrd hvalue hn
  obtain ⟨hshift, hnoDivision⟩ :
      EaOp.act rd op = State.shiftAct rd shiftLeft ∧ ¬ (op = .div ∨ op = .mod) := by
    rcases hop with rfl | rfl <;> exact ⟨rfl, by decide⟩
  have hact : EaOp.act rd op s (s.readReg rd) n = s.resultDrawn rd (shiftLeft (s.readReg rd) n.toNat) := by
    rw [hshift, State.shiftAct_small _ _ _ _ hn]
  exact exec_result_drawn_of (·.toNat = (s.readReg rd).toNat * 2 ^ n.toNat % 2 ^ 16) (shiftLeft_toNat _ _) hrd hvalue
    (absurd · hnoDivision) hact

/-- Settles O16: SHRA's result is known as a signed number, SHRL's as an unsigned one. -/
theorem shiftRightResults : Obligations.ShiftRightResults := by
  intro rd ea s n hrd hvalue hn
  refine ⟨?shra, ?shrl⟩
  case shra =>
    exact exec_result_drawn_of (op := .shra) (·.toInt = (s.readReg rd).toInt / 2 ^ n.toNat)
      (shiftRightArith_toInt _ _) hrd hvalue (by simp) (State.shiftAct_small _ _ _ _ hn)
  case shrl =>
    exact exec_result_drawn_of (op := .shrl) (·.toNat = (s.readReg rd).toNat / 2 ^ n.toNat)
      (shiftRightLogic_toNat _ _) hrd hvalue (by simp) (State.shiftAct_small _ _ _ _ hn)

/-! ### The shifts by 16 or more (42_shift.md R180) -/

/-- An eight-mode instruction whose operand has a value completes within its frame, unless it divides by zero. -/
theorem exec_ea_frame {op : EaOp} {rd : Reg} {ea : Ea} {s : State} {b : Word} (hrd : rd ≠ .flag)
    (hb : s.value ea = .ok b) (hz : op = .div ∨ op = .mod → b ≠ 0) :
    ∃ t, exec (Instr.ofEa op rd ea) s = .next t ∧ ModeKept s t ∧ RegistersKeptBut (homeOf rd s.flag.p) s t ∧
      t.pc = s.pc + eaBytes ea ∧ MemoryKept s t ∧ SystemAndTraceKept s t := by
  have hframe := ActFrame.of_act op rd s (s.readReg rd) b hrd
  exact ⟨_, exec_ea_value op rd ea s b (.inr hrd) hb hz, hframe.mode, hframe.registersKept _, rfl,
    hframe.memoryKept _, hframe.systemKept _⟩

/-- Settles O17: a shift is no division, and the frame of its writes is the same where the result is drawn. -/
theorem shiftByLargeCountCompletes : Obligations.ShiftByLargeCountCompletes := by
  intro op hop rd ea s n hrd hvalue _
  have hnoDivision : ¬ (op = .div ∨ op = .mod) := by
    rcases hop with rfl | rfl | rfl | rfl <;> decide
  exact exec_ea_frame hrd hvalue (absurd · hnoDivision)

end Sys2Proof.Machine
end

section
/-! Jumps and CALL (43_jump_call.md): the words of a jump in both modes and where it goes, its condition after CMP, and the
pair of CALL and RET. -/

namespace Sys2Proof.Machine

/-! ### The words and the target of a jump (43_jump_call.md R200) -/

section
variable (k : Cond) (dsp : Word) {s : State} {c : Prop} [Decidable c]

theorem exec_jumpDrct_of_iff (h : condHolds k s.flag = true ↔ c) :
    exec (Instr.ofJumpDrct k dsp) s = .next (s.goto (if c then dsp else s.pc + 4)) := by
  rw [exec_jumpDrct, State.jump]
  simp only [h]
  rfl

theorem exec_jumpIndex_of_iff (rx : Reg) (h : condHolds k s.flag = true ↔ c) :
    exec (Instr.ofJumpIndex k rx dsp) s = .next (s.goto (if c then dsp + s.readReg rx else s.pc + 4)) := by
  rw [exec_jumpIndex, State.jump]
  simp only [h]
  rfl

theorem exec_jumpDrct_decide (h : condHolds k s.flag = true ↔ c) :
    exec (Instr.ofJumpDrct k dsp) s = .next (s.goto (if decide c then dsp else s.pc + 4)) :=
  exec_jumpDrct_of_iff k dsp (h.trans decide_eq_true_iff.symm)

/-- The jump on a condition in modes 0 and 1: its words, whose Rd field selects the condition (30_encoding.md R101), and
where it goes. -/
theorem jump_decode_exec (rx : BitVec 4) (h : condHolds k s.flag = true ↔ c) :
    decode (word1 0xA0 k.nibble 0) dsp = .instr (Instr.ofJumpDrct k dsp) ∧
      decode (word1 0xA1 k.nibble rx) dsp = .instr (Instr.ofJumpIndex k (Reg.ofNibble rx) dsp) ∧
      exec (Instr.ofJumpDrct k dsp) s = .next (s.goto (if c then dsp else s.pc + 4)) ∧
      exec (Instr.ofJumpIndex k (Reg.ofNibble rx) dsp) s =
        .next (s.goto (if c then dsp + s.readReg (Reg.ofNibble rx) else s.pc + 4)) := by
  refine ⟨?_, ?_, exec_jumpDrct_of_iff k dsp h, exec_jumpIndex_of_iff k dsp _ h⟩
  · rw [decode_jumpDrct, Cond.ofNibble_nibble, jumpRow]
  · rw [decode_jumpIndex, Cond.ofNibble_nibble, jumpRow]

end

/-- Settles O18: the condition of each of these jumps is a bit of FLAG, its complement, or true. -/
theorem jumpsOnOneFlag : Obligations.JumpsOnOneFlag := by
  intro rx dsp s r f jumps
  exact ⟨jump_decode_exec .z dsp rx .rfl, jump_decode_exec .c dsp rx .rfl, jump_decode_exec .m dsp rx .rfl,
    jump_decode_exec .o dsp rx .rfl, jump_decode_exec .nz dsp rx .rfl, jump_decode_exec .nc dsp rx .rfl,
    jump_decode_exec .nm dsp rx .rfl, jump_decode_exec .no dsp rx .rfl, jump_decode_exec .always dsp rx .rfl⟩

/-! ### The conditions on a relation, as propositions (43_jump_call.md R206 to R209, R214, R215) -/

section
variable (f : Flag)

theorem condHolds_lt_iff : condHolds .lt f = true ↔ f.s ≠ f.v := by
  rw [condHolds, bne_iff_ne]

theorem condHolds_ge_iff : condHolds .ge f = true ↔ f.s = f.v := by
  rw [condHolds, Bool.not_eq_true', bne_eq_false_iff_eq]

theorem condHolds_le_iff : condHolds .le f = true ↔ f.z = true ∨ f.s ≠ f.v := by
  rw [condHolds, Bool.or_eq_true, bne_iff_ne]

theorem condHolds_gt_iff : condHolds .gt f = true ↔ ¬ (f.z = true ∨ f.s ≠ f.v) := by
  rw [← condHolds_le_iff, Bool.not_eq_true, condHolds, Bool.not_eq_true', condHolds]

theorem condHolds_hi_iff : condHolds .hi f = true ↔ f.z = false ∧ f.c = false := by
  rw [condHolds, Bool.and_eq_true, Bool.not_eq_true', Bool.not_eq_true']

theorem condHolds_ls_iff : condHolds .ls f = true ↔ f.z = true ∨ f.c = true := by
  rw [condHolds, Bool.or_eq_true]

end

/-- Settles O19: as O18, by the six conditions as propositions. -/
theorem jumpsOnRelation : Obligations.JumpsOnRelation := by
  intro rx dsp s r f jumps
  exact ⟨jump_decode_exec .gt dsp rx (condHolds_gt_iff f), jump_decode_exec .ge dsp rx (condHolds_ge_iff f),
    jump_decode_exec .le dsp rx (condHolds_le_iff f), jump_decode_exec .lt dsp rx (condHolds_lt_iff f),
    jump_decode_exec .hi dsp rx (condHolds_hi_iff f), jump_decode_exec .ls dsp rx (condHolds_ls_iff f)⟩

/-! ### The conditions after CMP (43_jump_call.md R201) -/

/-- What Z, C, S and V say of two compared operands (41_arith_logic.md R154). -/
structure Flag.Compares (f : Flag) (a b : Word) : Prop where
  equal : f.z = true ↔ a = b
  below : f.c = true ↔ a.toNat < b.toNat
  less : f.s ≠ f.v ↔ a.toInt < b.toInt

theorem State.cmpAct_compares (s : State) (a b : Word) : (s.cmpAct a b).flag.Compares a b where
  equal := decide_eq_true_iff.trans sub_eq_zero
  below := subBorrow_iff a b
  less := bne_iff_ne.symm.trans (sign_xor_subOverflow_iff a b)

section
variable {f : Flag} {a b : Word} (h : f.Compares a b)
include h

theorem Flag.Compares.lt_iff : condHolds .lt f = true ↔ a.toInt < b.toInt :=
  (condHolds_lt_iff f).trans h.less

theorem Flag.Compares.ge_iff : condHolds .ge f = true ↔ a.toInt ≥ b.toInt := by
  rw [condHolds_ge_iff, ← not_ne_iff, h.less, not_lt]

theorem Flag.Compares.le_iff : condHolds .le f = true ↔ a.toInt ≤ b.toInt := by
  rw [condHolds_le_iff, h.equal, h.less, ← BitVec.toInt_inj, le_iff_eq_or_lt]

theorem Flag.Compares.gt_iff : condHolds .gt f = true ↔ a.toInt > b.toInt := by
  rw [condHolds_gt_iff, ← condHolds_le_iff, h.le_iff, not_le]

theorem Flag.Compares.nz_iff : condHolds .nz f = true ↔ a ≠ b := by
  rw [condHolds, Bool.not_eq_true', ← Bool.not_eq_true, h.equal]

theorem Flag.Compares.nc_iff : condHolds .nc f = true ↔ a.toNat ≥ b.toNat := by
  rw [condHolds, Bool.not_eq_true', ← Bool.not_eq_true, h.below, not_lt]

theorem Flag.Compares.ls_iff : condHolds .ls f = true ↔ a.toNat ≤ b.toNat := by
  rw [condHolds_ls_iff, h.equal, h.below, ← BitVec.toNat_inj, le_iff_eq_or_lt]

theorem Flag.Compares.hi_iff : condHolds .hi f = true ↔ a.toNat > b.toNat := by
  rw [condHolds_hi_iff, ← Bool.not_eq_true, ← Bool.not_eq_true, ← not_or, ← condHolds_ls_iff, h.ls_iff, not_le]

end

/-- Settles O20: CMP leaves flags that compare its operands, and pc is no part of a condition. -/
theorem compareThenJump : Obligations.CompareThenJump := by
  intro rd ea s b dsp hrd hb
  have h : ((s.cmpAct (s.readReg rd) b).goto (s.npcEa ea)).flag.Compares (s.readReg rd) b := s.cmpAct_compares _ b
  exact ⟨_, exec_cmp_value hrd hb, exec_jumpDrct_decide .gt dsp h.gt_iff, exec_jumpDrct_decide .ge dsp h.ge_iff,
    exec_jumpDrct_decide .z dsp h.equal, exec_jumpDrct_decide .nz dsp h.nz_iff, exec_jumpDrct_decide .le dsp h.le_iff,
    exec_jumpDrct_decide .lt dsp h.lt_iff, exec_jumpDrct_decide .hi dsp h.hi_iff, exec_jumpDrct_decide .nc dsp h.nc_iff,
    exec_jumpDrct_decide .ls dsp h.ls_iff, exec_jumpDrct_decide .c dsp h.below⟩

/-! ### CALL and RET (43_jump_call.md R217, 45_stack_return.md R240, R243) -/

/-- `t` is `s` after a push of `v`, wherever pc is. -/
structure WordPushed (v : Word) (s t : State) : Prop where
  sp : t.readReg .sp = s.readReg .sp - 2
  word : t.wordAt (s.readReg .sp - 2) = v
  memory : MemoryKeptButWord (s.readReg .sp - 2) s t
  registers : RegistersKeptBut (homeOf .sp s.flag.p) s t
  flag : t.flag = s.flag
  system : SystemAndTraceKept s t

/-- A push whose slot can be written, and a jump. -/
theorem State.push_goto_wordPushed {s : State} (v pc : Word) (h : s.wordWritable (s.readReg .sp - 2)) :
    WordPushed v s (((s.storeWord (s.readReg .sp - 2) v).writeReg .sp (s.readReg .sp - 2)).goto pc) where
  sp := State.readReg_writeReg _ _ (by decide)
  word := State.wordAt_pushed v _ pc h
  memory a ha ha1 :=
    (MemoryKept.writeReg_goto _ .sp _ pc a).trans (MemoryKeptButWord.storeWord v h a ha ha1)
  registers := (RegistersKeptBut.writeReg (s.storeWord _ v) .sp _).of_eq rfl rfl rfl
  flag := State.writeReg_flag_of_ne _ .sp _ (by decide)
  system := by
    refine ⟨?_, by simp⟩
    constructor <;> simp

/-- CALL where its return address can be pushed. -/
theorem exec_call_writable {s : State} {m : MemEa} {i : Instr} (hrow : callRow m = some i)
    (hslot : s.wordWritable (s.readReg .sp - 2)) :
    ∃ t, exec i s = .next t ∧ t.pc = s.addr m ∧ WordPushed (s.pc + 4) s t := by
  have hcall := State.call_writable m hslot
  rw [State.npcMem_of_callRow hrow] at hcall
  exact ⟨_, (exec_call s hrow).trans hcall, rfl, State.push_goto_wordPushed _ _ hslot⟩

/-- Settles O21: CALL is a push of the address after it and a jump to its effective address. -/
theorem callPushesReturnAddress : Obligations.CallPushesReturnAddress := by
  intro m i s hrow hslot
  obtain ⟨t, hexec, hpc, h⟩ := exec_call_writable hrow hslot
  exact ⟨t, hexec, hpc, h.sp, h.word, h.memory, h.registers, h.flag, h.system⟩

/-- RET where its return address can be read. -/
theorem exec_ret_readable {s : State} (h : s.wordReadable (s.readReg .sp)) :
    exec .ret s = .next ((s.writeReg .sp (s.readReg .sp + 2)).goto (s.wordAt (s.readReg .sp))) := by
  change execRet s = _
  simp only [execRet, State.pop_readable h]

/-- Whether a word can be read depends on relocation and paging, not on what memory holds. -/
theorem State.wordReadable_of_systemKept {s t : State} {a : Word} (h : s.wordReadable a) (hsystem : SystemKept s t) :
    t.wordReadable a := by
  obtain ⟨hmmu, heven⟩ := h
  exact ⟨by rw [State.mmuOn, hsystem.relocation, hsystem.paging]; exact hmmu, heven⟩

/-- The pop of the word that was pushed gives back SP, so no register has changed. -/
theorem WordPushed.registersKept_pop {v : Word} {s t : State} (h : WordPushed v s t) (pc : Word) :
    RegistersKept s ((t.writeReg .sp (t.readReg .sp + 2)).goto pc) := by
  intro g hg
  have hpc : ((t.writeReg .sp (t.readReg .sp + 2)).goto pc).peek g = (t.writeReg .sp (t.readReg .sp + 2)).peek g :=
    State.peek_congr _ _ rfl rfl rfl g hg
  have hmode : homeOf .sp t.flag.p = homeOf .sp s.flag.p := by rw [h.flag]
  rw [hpc]
  by_cases hsp : g = homeOf .sp s.flag.p
  · rw [hsp, ← hmode, State.peek_writeReg t .sp _ (by decide), h.sp, hmode, BitVec.sub_add_cancel]
    rfl
  · exact (RegistersKeptBut.writeReg t .sp _ g (hmode ▸ hsp) hg).trans (h.registers g hsp hg)

/-- Settles O22: RET pops the word that CALL pushed. -/
theorem callThenRet : Obligations.CallThenRet := by
  intro m i s t hrow hslot hcall
  obtain ⟨t', hexec, -, hpushed⟩ := exec_call_writable hrow hslot
  obtain rfl : t' = t := by injection hexec.symm.trans hcall
  have hreadable : t'.wordReadable (t'.readReg .sp) :=
    hpushed.sp ▸ State.wordReadable_of_systemKept hslot.1 hpushed.system.1
  refine ⟨_, exec_ret_readable hreadable, ?pc, hpushed.registersKept_pop _, ?flag⟩
  case pc => exact (congrArg t'.wordAt hpushed.sp).trans hpushed.word
  case flag => exact (State.writeReg_flag_of_ne t' .sp _ (by decide)).trans hpushed.flag

end Sys2Proof.Machine
end

section
/-! IN and OUT (44_in_out.md): the one read of an IN and what it leaves, the bits its value has fixed, and the device
registers an OUT writes. -/

namespace Sys2Proof.Machine

/-! ### The I/O map by its blocks (60_exceptions.md R350, R362; 20_memory.md R70) -/

theorem deviceByte_device (a : Nat) : ∃ r w, deviceByte a = .device r w := by
  unfold deviceByte
  split <;> exact ⟨_, _, rfl⟩

theorem consoleByte_cases (a : Nat) : consoleByte a = .zero ∨ ∃ r w, consoleByte a = .device r w := by
  unfold consoleByte
  split
  case h_7 => exact .inl rfl
  all_goals exact .inr ⟨_, _, rfl⟩

/-- Outside the MMU block there are only device registers, "00H" bytes and free ports. -/
theorem portByte_outside_mmu {p : Nat} (h : p < 0x80 ∨ 0xAA ≤ p) :
    portByte p = .zero ∨ portByte p = .free ∨ ∃ r w, portByte p = .device r w := by
  unfold portByte
  split
  · exact .inr (.inr ⟨_, _, rfl⟩)
  split
  · split
    · exact .inl rfl
    · exact .inr (.inr (deviceByte_device p))
  split
  · exact .inr (.inl rfl)
  rw [if_neg (by omega), if_neg (by omega)]
  split
  · exact .inr (.inl rfl)
  · exact (consoleByte_cases p).imp_right .inr

/-- The "00H" bytes of the device block are those at its even addresses, the 16-bit ports apart. -/
theorem portByte_even_device {p : Nat} (h : 0x08 ≤ p ∧ p < 0x12 ∨ 0x18 ≤ p ∧ p < 0x3A) (heven : p % 2 = 0) :
    portByte p = .zero := by
  unfold portByte
  rw [if_neg (by simp; omega), if_pos (by omega), if_pos (by simp [heven])]

/-! ### What a read leaves (20_memory.md R56, R70) -/

/-- Only a read of A4h to A7h changes a register of the machine. -/
theorem State.portNote_elsewhere (s : State) {p : Nat} (x : Byte) (h : p < 0xA4 ∨ 0xA7 < p) : s.portNote p x = s := by
  by_cases houtside : p < 0x80 ∨ 0xAA ≤ p
  · rcases portByte_outside_mmu houtside with hp | hp | ⟨r, w, hp⟩ <;> simp only [State.portNote, hp]
  by_cases htlb : p < 0xA0
  · obtain ⟨n, hn, hp⟩ : ∃ n, n < 8 ∧ (p = 0x80 + 4 * n ∨ p = 0x81 + 4 * n ∨ p = 0x82 + 4 * n ∨ p = 0x83 + 4 * n) :=
      ⟨(p - 0x80) / 4, by omega, by omega⟩
    obtain ⟨hzero, hpage, hupper, hlower⟩ := portByte_tlb hn
    rcases hp with rfl | rfl | rfl | rfl <;> simp only [State.portNote, hzero, hpage, hupper, hlower]
  · have hports : p = 0xA0 ∨ p = 0xA1 ∨ p = 0xA2 ∨ p = 0xA3 ∨ p = 0xA8 ∨ p = 0xA9 := by omega
    rcases hports with rfl | rfl | rfl | rfl | rfl | rfl <;> rfl

theorem State.ioReadDone_elsewhere (s : State) {m : MemEa} {a : Word} (v : Word) (haccess : ioAccess m a)
    (h : a.toNat < 0xA4 ∨ 0xA7 < a.toNat) :
    s.ioReadDone (isByteForm m) a v = ({ s with draws := s.draws + 1 } : State).record
      { direction := .input, port := a, bytes := if isByteForm m then 1 else 2, value := v } := by
  cases hm : isByteForm m with
  | true => simp only [State.ioReadDone, if_true, State.portNote_elsewhere _ _ h]
  | false =>
    have heven := haccess.2 hm
    have hnext : a.toNat + 1 < 0xA4 ∨ 0xA7 < a.toNat + 1 := by omega
    simp only [State.ioReadDone, Bool.false_eq_true, if_false, State.portNote_elsewhere _ _ h,
      State.portNote_elsewhere _ _ hnext]

theorem State.ioReadDone_trace (s : State) (b : Bool) (a v : Word) :
    (s.ioReadDone b a v).trace = ⟨.input, a, if b then 1 else 2, v⟩ :: s.trace := by
  obtain ⟨c, p, h⟩ := s.ioReadDone_eq b a v
  rw [h]

/-! ### IN makes one read (44_in_out.md R231, R232) -/

/-- IN where it may make its access. -/
theorem exec_in_ok {s : State} {rd : Reg} {m : MemEa} {i : Instr} (hrow : inRow rd m = some i)
    (hadmits : s.ioAdmits m) {v : Word} (hv : s.ioValue (isByteForm m) (s.addr m) = v) :
    exec i s = .next (((s.ioReadDone (isByteForm m) (s.addr m) v).writeReg rd v).goto (s.npcMem m)) := by
  obtain ⟨hflag, haccess⟩ := hadmits
  rw [exec_in s hrow]
  simp [State.input, State.ioAllowed_of_flag hflag, ioAddressStop_of_ioAccess haccess, hv]

theorem State.ioValue_byte_lt (s : State) (a : Word) : (s.ioValue true a).toNat < 256 := by
  simp only [State.ioValue, if_true, BitVec.toNat_setWidth]
  omega

/-- A register write and the advance of pc, after an update that leaves the registers and FLAG alone. -/
theorem RegistersKeptBut.writeReg_goto {s t : State} (hregs : t.regs = s.regs) (hssp : t.ssp = s.ssp)
    (husp : t.usp = s.usp) (hflag : t.flag = s.flag) (r : Reg) (v pc : Word) :
    RegistersKeptBut (homeOf r s.flag.p) s ((t.writeReg r v).goto pc) := by
  intro g hg hne
  have hwritten : ((t.writeReg r v).goto pc).peek g = t.peek g :=
    (RegistersKeptBut.writeReg t r v).of_eq rfl rfl rfl g (hflag ▸ hg) hne
  exact hwritten.trans (State.peek_congr s t hregs hssp husp g hne)

theorem State.peek_writeReg_goto {s t : State} {r : Reg} (hflag : t.flag = s.flag) (v pc : Word) (hr : r ≠ .flag) :
    ((t.writeReg r v).goto pc).peek (homeOf r s.flag.p) = v := by
  rw [← hflag]
  exact (State.peek_congr _ _ rfl rfl rfl _ (homeOf_ne_flag r _ hr)).trans (State.peek_writeReg t r v hr)

/-- Settles O23: IN is one `ioReadDone`, which changes the two registers that present something, the trace and the count
of draws, and then one register write and the advance of pc. -/
theorem inDeliversOneRead : Obligations.InDeliversOneRead := by
  intro rd m i s hrow hflag haccess
  obtain ⟨v, hv⟩ : ∃ v, s.ioValue (isByteForm m) (s.addr m) = v := ⟨_, rfl⟩
  have hexec := exec_in_ok hrow ⟨hflag, haccess⟩ hv
  obtain ⟨cause, page, hread⟩ := s.ioReadDone_eq (isByteForm m) (s.addr m) v
  have helsewhere := s.ioReadDone_elsewhere v haccess
  rw [hread] at hexec helsewhere
  refine ⟨_, v, hexec, State.writeReg_trace .., ?byte, ?register, ?flag,
    ?others, rfl, MemoryKept.writeReg_goto _ rd v _, ?latched, ?elsewhere⟩
  case byte =>
    intro hm
    rw [← hv, hm]
    exact s.ioValue_byte_lt _
  case register =>
    intro hrd
    refine ⟨State.peek_writeReg_goto ?_ v _ hrd, State.writeReg_flag_of_ne _ rd v hrd⟩
    rfl
  case flag =>
    rintro rfl
    rfl
  case others => refine .writeReg_goto ?_ ?_ ?_ ?_ rd v _ <;> rfl
  case latched => constructor <;> simp
  case elsewhere =>
    intro h
    obtain rfl : cause = s.mmuCause := congrArg State.mmuCause (helsewhere h)
    obtain rfl : page = s.faultPage := congrArg State.faultPage (helsewhere h)
    constructor <;> simp

/-! ### The bits an IN finds fixed (44_in_out.md R232, 20_memory.md R57) -/

theorem lowByte_setWidth (x : Byte) : lowByte (x.setWidth 16) = x := by
  simp [lowByte, BitVec.extractLsb'_setWidth_of_le]

/-- Each byte of the value an IN delivers is what its port byte answers. -/
theorem State.accessByte_ioValue {s : State} {m : MemEa} {a : Word} {p : Nat} {x : Byte}
    (h : accessByte m a (s.ioValue (isByteForm m) a) p = some x) : ∃ answer, x = s.portRead p answer := by
  cases hm : isByteForm m with
  | true =>
    rw [hm, accessByte_byte hm] at h
    simp only [oneByte, Option.ite_none_right_eq_some, Option.some.injEq] at h
    obtain ⟨rfl, rfl⟩ := h
    exact ⟨_, lowByte_setWidth _⟩
  | false =>
    rw [hm, accessByte_word hm] at h
    simp only [State.ioValue, Bool.false_eq_true, if_false, highByte_wordOfBytes, lowByte_wordOfBytes,
      Option.or_eq_some_iff, oneByte, Option.ite_none_right_eq_some, Option.some.injEq] at h
    rcases h with ⟨rfl, rfl⟩ | ⟨-, rfl, rfl⟩
    · exact ⟨_, rfl⟩
    · exact ⟨_, rfl⟩

section
variable {s : State} {p : Nat} (answer : Byte)

theorem State.portRead_zero (h : portByte p = .zero) : s.portRead p answer = 0 := by
  simp only [State.portRead, h]

/-- The bits that a device's layout prints as 0 are 0 in its answer. -/
theorem State.portRead_fixed {r mask : Byte} {w : Bool} (h : portByte p = .device r w) (hmask : r &&& mask = 0) :
    s.portRead p answer &&& mask = 0 := by
  simp only [State.portRead, h, BitVec.and_assoc, hmask]
  exact BitVec.and_zero

theorem State.portRead_unreadable {w : Bool} (h : portByte p = .device 0 w) : s.portRead p answer = 0 := by
  simp only [State.portRead, h]
  exact BitVec.and_zero

end

/-- The ports whose byte reads 00h. -/
theorem State.portRead_eq_zero (s : State) {p : Nat} (answer : Byte)
    (h : (0x08 ≤ p ∧ p < 0x12 ∨ 0x18 ≤ p ∧ p < 0x3A) ∧ p % 2 = 0 ∨ p = 0x39 ∨ (0x80 ≤ p ∧ p < 0xA0) ∧ p % 4 = 0 ∨
      p = 0xA0 ∨ p = 0xA2 ∨ p = 0xA8 ∨ p = 0xFC ∨ p = 0xFE ∨ p = 0x33 ∨ p = 0x35) : s.portRead p answer = 0 := by
  rcases h with ⟨hblock, heven⟩ | hzero | ⟨⟨hlow, hhigh⟩, hmod⟩ | hzero | hzero | hzero | hzero | hzero |
    hwriteOnly | hwriteOnly
  · exact State.portRead_zero answer (portByte_even_device hblock heven)
  · exact State.portRead_zero answer (hzero ▸ rfl)
  · obtain ⟨n, hn, rfl⟩ : ∃ n, n < 8 ∧ p = 0x80 + 4 * n := ⟨(p - 0x80) / 4, by omega, by omega⟩
    obtain ⟨hzero, -⟩ := portByte_tlb hn
    exact State.portRead_zero answer hzero
  iterate 5 exact State.portRead_zero answer (hzero ▸ rfl)
  iterate 2 exact State.portRead_unreadable (w := true) answer (hwriteOnly ▸ rfl)

/-- The three bytes of TLB[n] as an IN finds them. -/
theorem State.portRead_tlb (s : State) {n : Nat} (hn : n < 8) (answer : Byte) :
    s.portRead (0x81 + 4 * n) answer = tlbPageOf (s.tlbEntry n) ∧
      s.portRead (0x82 + 4 * n) answer &&& 0x9F = tlbHighOf (s.tlbEntry n) &&& 0x9F ∧
      s.portRead (0x83 + 4 * n) answer = tlbFrame (s.tlbEntry n) := by
  obtain ⟨-, hpage, hupper, hlower⟩ := portByte_tlb hn
  have hfree : answer &&& (0x60 &&& 0x9F) = 0#8 := BitVec.and_zero
  simp only [State.portRead, hpage, hupper, hlower, true_and, and_true]
  rw [BitVec.and_or_distrib_right, BitVec.and_assoc, BitVec.and_assoc, hfree, BitVec.or_zero]
  rfl

/-- Settles O24: each byte of the value is the answer of its port byte, whose fixed bits the I/O map gives. -/
theorem inFixedBits : Obligations.InFixedBits := by
  intro rd m i s hrow hadmits
  refine ⟨_, _, exec_in_ok hrow hadmits rfl, (State.writeReg_trace ..).trans (State.ioReadDone_trace ..), fun p x hx => ?_⟩
  obtain ⟨answer, rfl⟩ := State.accessByte_ioValue hx
  refine ⟨s.portRead_eq_zero answer, ?serial, ?microSd, ?mode, ?rn4020, ?rotary, ?function, fun n hn => ?tlb⟩
  case serial =>
    rintro (rfl | rfl | rfl) <;> exact State.portRead_fixed (r := 0xC0) (w := true) answer rfl rfl
  case microSd => rintro rfl; exact State.portRead_fixed (r := 0xC1) (w := true) answer rfl rfl
  case mode => rintro rfl; exact State.portRead_fixed (r := 0x07) (w := false) answer rfl rfl
  case rn4020 => rintro rfl; exact State.portRead_fixed (r := 0x0F) (w := true) answer rfl rfl
  case rotary => rintro rfl; exact State.portRead_fixed (r := 0x1F) (w := false) answer rfl rfl
  case function => rintro rfl; exact State.portRead_fixed (r := 0x0F) (w := false) answer rfl rfl
  case tlb =>
    obtain ⟨hpage, hupper, hlower⟩ := s.portRead_tlb hn answer
    exact ⟨fun hp => hp ▸ hpage, fun hp => hp ▸ hupper, fun hp => hp ▸ hlower⟩

/-! ### The device registers an OUT writes (44_in_out.md R233, 60_exceptions.md R350) -/

/-- An OUT reaches a device register at this port byte. -/
def outReaches (p : Nat) : Bool :=
  match portByte p with
  | .device _ writable => writable
  | _ => false

theorem outReaches_iff {p : Nat} : outReaches p = true ↔ ∃ r, portByte p = .device r true := by
  cases hp : portByte p <;> simp [outReaches, hp]

/-- `t` is `s` after the bytes `written` have been written outside the MMU block: the device registers they reach hold
them, the others what they held; and nothing but these registers has changed. -/
structure DeviceWritten (written : Nat → Option Byte) (s t : State) : Prop where
  reg : ∀ p, t.ioReg p = if outReaches p then (written p).getD (s.ioReg p) else s.ioReg p
  wf : ioWf t.io
  frame : ∃ io, t = { s with io := io }

/-- Two writes one after the other: the later byte counts. -/
theorem DeviceWritten.trans {w w' : Nat → Option Byte} {s t u : State} (hst : DeviceWritten w s t)
    (htu : DeviceWritten w' t u) : DeviceWritten (fun q => (w' q).or (w q)) s u where
  reg p := by
    rw [htu.reg, hst.reg]
    split
    · rw [Option.getD_or]
    · rfl
  wf := htu.wf
  frame := by
    obtain ⟨io, rfl⟩ := hst.frame
    obtain ⟨io', rfl⟩ := htu.frame
    exact ⟨io', rfl⟩

/-- A write that reaches no device register. -/
theorem DeviceWritten.unchanged {s : State} {p : Nat} (x : Byte) (hwf : ioWf s.io) (h : outReaches p = false) :
    DeviceWritten (oneByte p x) s s where
  reg q := by
    by_cases hq : q = p
    · simp [hq, h]
    · simp [oneByte_of_ne x hq]
  wf := hwf
  frame := ⟨_, rfl⟩

theorem DeviceWritten.setIoReg {s : State} {p : Nat} (x : Byte) (hwf : ioWf s.io) (hp : p < 256)
    (h : outReaches p = true) : DeviceWritten (oneByte p x) s (s.setIoReg p x) where
  reg q := by
    rw [State.ioReg_setIoReg s p q x hwf]
    by_cases hq : q = p
    · simp [oneByte, hq, h]
    · simp [oneByte, hq]
  wf := ioWf_setIoReg s p x hp hwf
  frame := ⟨_, rfl⟩

/-- A byte written outside the MMU block is held in the device register it reaches. -/
theorem State.portWrite_device {s : State} {p : Nat} (x : Byte) (hwf : ioWf s.io) (houtside : p < 0x80 ∨ 0xAA ≤ p) :
    ∃ t, s.portWrite p x = .ok t ∧ DeviceWritten (oneByte p x) s t := by
  rcases portByte_outside_mmu houtside with hp | hp | ⟨r, w, hp⟩
  · exact ⟨s, State.portWrite_zero hp x, .unchanged x hwf (by simp only [outReaches, hp])⟩
  · exact ⟨s, by simp only [State.portWrite, hp], .unchanged x hwf (by simp only [outReaches, hp])⟩
  · cases w with
    | false => exact ⟨s, by simp only [State.portWrite, hp], .unchanged x hwf (by simp only [outReaches, hp])⟩
    | true =>
      exact ⟨s.setIoReg p x, by simp only [State.portWrite, hp],
        .setIoReg x hwf (portByte_device_lt hp) (outReaches_iff.2 ⟨r, hp⟩)⟩

/-- The one or two bytes of an OUT outside the MMU block, one after the other. -/
theorem State.ioWrite_device {s : State} {m : MemEa} {a : Word} (v : Word) (haccess : ioAccess m a) (hwf : ioWf s.io)
    (houtside : a.toNat < 0x80 ∨ 0xAA ≤ a.toNat) :
    ∃ t, s.ioWrite (isByteForm m) a v = .ok (t.record (outEvent m a v)) ∧ DeviceWritten (accessByte m a v) s t := by
  cases hm : isByteForm m with
  | true =>
    rw [accessByte_byte hm]
    obtain ⟨t, ht, hwritten⟩ := State.portWrite_device (lowByte v) hwf houtside
    exact ⟨t, hm ▸ State.ioWrite_byte hm ht, hwritten⟩
  | false =>
    have heven := haccess.2 hm
    have hnext : a.toNat + 1 < 0x80 ∨ 0xAA ≤ a.toNat + 1 := by omega
    rw [accessByte_word hm]
    obtain ⟨t, ht, hfirst⟩ := State.portWrite_device (highByte v) hwf houtside
    obtain ⟨u, hu, hsecond⟩ := State.portWrite_device (lowByte v) hfirst.wf hnext
    exact ⟨u, hm ▸ State.ioWrite_word hm ht hu, hfirst.trans hsecond⟩

/-- Settles O25: the bytes of the OUT are held as `DeviceWritten` says, and its frame is that of the whole instruction. -/
theorem outToDevice : Obligations.OutToDevice := by
  intro rd m i s hrow hadmits hwf houtside
  obtain ⟨t, ht, hreg, -, ⟨io, rfl⟩⟩ := State.ioWrite_device (s.readReg rd) hadmits.2 hwf houtside
  refine ⟨_, exec_out_ok hrow hadmits ht, fun p => (hreg p).trans ?held, rfl, .of_eq rfl rfl rfl, rfl, rfl,
    .of_eq rfl rfl rfl, ?frame⟩
  case held =>
    by_cases hp : outReaches p = true
    · obtain ⟨r, hdevice⟩ := outReaches_iff.1 hp
      cases accessByte m (s.addr m) (s.readReg rd) p <;> simp [hp, hdevice]
    · rw [if_neg hp]
      split
      case h_1 hdevice _ => exact absurd (outReaches_iff.2 ⟨_, hdevice⟩) hp
      case h_2 => rfl
  case frame => constructor <;> rfl

end Sys2Proof.Machine
end

section
/-! PUSH, POP, RET and RETI (45_stack_return.md): each where its stack accesses can be made, what it leaves unchanged, and
when PUSH and POP are refused. -/

namespace Sys2Proof.Machine

/-! ### Which registers name the stack pointer (10_state.md R24) -/

theorem State.namesSp_eq_false_iff {s : State} {r : Reg} :
    s.namesSp r = false ↔ homeOf r s.flag.p ≠ homeOf .sp s.flag.p := decide_eq_false_iff_not

theorem State.namesSp_sp (s : State) : s.namesSp .sp = true := decide_eq_true rfl

/-- USP is the stack pointer in user mode only. -/
theorem State.namesSp_usp (s : State) : s.namesSp .usp = !s.flag.p := by
  cases hp : s.flag.p <;> simp [State.namesSp, homeOf, hp]

/-- FLAG is not a stack pointer. -/
theorem State.namesSp_flag (s : State) : s.namesSp .flag = false :=
  State.namesSp_eq_false_iff.2 (homeOf_ne_flag .sp _ (by decide)).symm

/-! ### The instructions where their accesses answer (45_stack_return.md R241, R242, R246) -/

section
variable {s t : State} {rd : Reg}

theorem exec_push_ok (hsp : s.namesSp rd = false) (h : s.push (s.readReg rd) = .ok t) :
    exec (.push rd) s = .next (t.goto s.npcOne) := by
  change execPush rd s = _
  simp only [execPush, hsp, h, Bool.false_eq_true, if_false]

theorem exec_pop_ok {v : Word} (hsp : s.namesSp rd = false) (h : s.pop = .ok (v, t)) :
    exec (.pop rd) s = .next ((t.writeReg rd v).goto s.npcOne) := by
  change execPop rd s = _
  simp only [execPop, hsp, h, Bool.false_eq_true, if_false]

theorem exec_reti_ok (h : s.trapReturn = .ok t) : exec .reti s = .next t := by
  change execReti s = _
  simp only [execReti, h]

theorem exec_push_namesSp (h : s.namesSp rd = true) : exec (.push rd) s = .refused .pushSp := if_pos h

theorem exec_pop_namesSp (h : s.namesSp rd = true) : exec (.pop rd) s = .refused .popSp := if_pos h

end

/-! ### PUSH (45_stack_return.md R241) -/

/-- Settles O31: PUSH is a push of the register and the advance of pc. -/
theorem pushStoresRegister : Obligations.PushStoresRegister := by
  intro rd s hsp hslot
  have h := State.push_goto_wordPushed (s.readReg rd) s.npcOne hslot
  exact ⟨_, exec_push_ok hsp (State.push_writable _ hslot), h.sp, h.word, h.memory, h.registers, h.flag, rfl, h.system⟩

/-! ### What POP and RETI leave (45_stack_return.md R242, R246) -/

/-- `t` is `s` after the stack pointer in use was set to `sp` and then `r` was written with `v`, wherever pc is. -/
structure StackRead (sp : Word) (r : Reg) (v : Word) (s t : State) : Prop where
  stackPointer : t.peek (homeOf .sp s.flag.p) = sp
  register : r ≠ .flag → t.peek (homeOf r s.flag.p) = v ∧ t.flag = s.flag
  flag : r = .flag → t.flag = s.flag.write v
  others : ∀ g, g ≠ homeOf .sp s.flag.p → g ≠ homeOf r s.flag.p → g ≠ .flag → t.peek g = s.peek g
  memory : MemoryKept s t
  system : SystemAndTraceKept s t

theorem State.writeReg_sp_stackRead {s : State} {r : Reg} (sp v pc : Word) (hr : s.namesSp r = false) :
    StackRead sp r v s (((s.writeReg .sp sp).writeReg r v).goto pc) := by
  have hmode : (s.writeReg .sp sp).flag = s.flag := State.writeReg_flag_of_ne s .sp sp (by decide)
  have hkept : RegistersKeptBut (homeOf r s.flag.p) (s.writeReg .sp sp) (((s.writeReg .sp sp).writeReg r v).goto pc) :=
    hmode ▸ RegistersKeptBut.writeReg_goto rfl rfl rfl rfl r v pc
  refine ⟨?stackPointer, fun hflag => ⟨?value, ?kept⟩, ?flag, fun g hsp hg hflag => ?others, ?memory, ?system⟩
  case stackPointer =>
    exact (hkept _ (State.namesSp_eq_false_iff.1 hr).symm (homeOf_ne_flag .sp _ (by decide))).trans
      (State.peek_writeReg s .sp sp (by decide))
  case value => exact hmode ▸ State.peek_writeReg_goto rfl v pc hflag
  case kept => exact (State.writeReg_flag_of_ne _ r v hflag).trans hmode
  case flag =>
    rintro rfl
    exact congrArg (fun f => f.write v) hmode
  case others => exact (hkept g hg hflag).trans (RegistersKeptBut.writeReg s .sp sp g hsp hflag)
  case memory => exact fun a => (MemoryKept.writeReg_goto _ r v pc a).trans (MemoryKept.writeReg_goto s .sp sp s.pc a)
  case system =>
    refine ⟨?_, by simp⟩
    constructor <;> simp

/-- Settles O32: POP moves the stack pointer it read and then writes Rd, FLAG by `FlagWrite`. -/
theorem popLoadsRegister : Obligations.PopLoadsRegister := by
  intro rd s hsp hread
  have h := State.writeReg_sp_stackRead (s.readReg .sp + 2) (s.wordAt (s.readReg .sp)) s.npcOne hsp
  exact ⟨_, exec_pop_ok hsp (State.pop_readable hread), h.stackPointer, h.register, h.flag, h.others, rfl, h.memory,
    h.system⟩

/-! ### RET (45_stack_return.md R243) -/

/-- The OP byte D0h spells RET, with both its fields fixed to 0h. -/
theorem decode_ret (rd rx : BitVec 4) (w2 : Word) : decode (word1 0xD0 rd rx) w2 = decodeFixed rd rx 0 .ret :=
  decode_word1 0xD0 rd rx w2

theorem State.pop_error {s : State} {e : Stop} (h : s.readWord (s.readReg .sp) = .error e) : s.pop = .error e := by
  simp only [State.pop, h]

/-- Settles O34: RET is one register write, of SP, and a jump; where its read stops it is that stop. -/
theorem retPopsPc : Obligations.RetPopsPc := by
  refine ⟨decode_ret 0 0, fun s => ⟨fun hread => ?next, fun x hraise => exec_ret_stop (State.pop_error hraise)⟩⟩
  case next =>
    have hflag : (s.writeReg .sp (s.readReg .sp + 2)).flag = s.flag := State.writeReg_flag_of_ne s .sp _ (by decide)
    exact ⟨_, exec_ret_readable hread, rfl, State.readReg_writeReg s _ (by decide),
      RegistersKeptBut.writeReg_goto rfl rfl rfl rfl .sp _ _, hflag, MemoryKept.writeReg_goto s .sp _ _,
      SystemAndTraceKept.writeReg_goto s .sp _ _⟩

/-! ### RETI (45_stack_return.md R246) -/

/-- Settles O35: RETI moves the stack pointer it read, writes FLAG by `FlagWrite` and jumps. -/
theorem retiRestoresFlagAndPc : Obligations.RetiRestoresFlagAndPc := by
  intro s hflag hpc
  have h := State.writeReg_sp_stackRead (s.readReg .sp + 4) (s.wordAt (s.readReg .sp)) (s.wordAt (s.readReg .sp + 2))
    s.namesSp_flag
  obtain ⟨-, -, hwrite⟩ := flagWordAndFlagWrite s.flag (s.wordAt (s.readReg .sp))
  exact ⟨_, exec_reti_ok (State.trapReturn_readable hflag hpc), rfl, h.stackPointer, (congrArg _ (h.flag rfl)).trans hwrite,
    fun g hsp hg => h.others g hsp hg hg, h.memory, h.system⟩

/-! ### The refusals of a memory access and of a trap entry (20_memory.md R52, R61, R72, 60_exceptions.md R320) -/

/-- A refusal that a memory access or a trap entry gives, whatever the instruction. -/
inductive Refusal.OfAccess : Refusal → Prop
  | misaligned (a : Word) : Refusal.OfAccess (.misaligned a)
  | mmuOn : Refusal.OfAccess .mmuOn
  | storeToIpl (a : Word) : Refusal.OfAccess (.storeToIpl a)
  | faultDuringTrapEntry : Refusal.OfAccess .faultDuringTrapEntry

section
variable {s : State} {r : Refusal}

theorem State.admitWord_refuse {a : Word} (h : s.admitWord a = .error (.refuse r)) : r.OfAccess := by
  simp only [State.admitWord] at h
  split at h
  · cases h; exact .mmuOn
  split at h
  · cases h
  split at h
  · cases h; exact .misaligned a
  · cases h
  · cases h

theorem State.readWord_refuse {a : Word} (h : s.readWord a = .error (.refuse r)) : r.OfAccess := by
  simp only [State.readWord] at h
  split at h
  · cases h
  next hadmit => cases h; exact State.admitWord_refuse hadmit

theorem State.writeWord_refuse {a v : Word} (h : s.writeWord a v = .error (.refuse r)) : r.OfAccess := by
  simp only [State.writeWord] at h
  split at h
  · split at h
    · cases h; exact .storeToIpl _
    · cases h
  next hadmit => cases h; exact State.admitWord_refuse hadmit

theorem State.push_refuse {v : Word} (h : s.push v = .error (.refuse r)) : r.OfAccess := by
  simp only [State.push] at h
  split at h
  · cases h
  next hwrite => cases h; exact State.writeWord_refuse hwrite

theorem State.pop_refuse (h : s.pop = .error (.refuse r)) : r.OfAccess := by
  simp only [State.pop] at h
  split at h
  · cases h
  next hread => cases h; exact State.readWord_refuse hread

theorem State.trapFrame_refuse {n : Nat} {pc : Word} (h : s.trapFrame n pc = .error (.refuse r)) : r.OfAccess := by
  simp only [State.trapFrame] at h
  split at h
  next hpc => cases h; exact State.push_refuse hpc
  split at h
  next hflag => cases h; exact State.push_refuse hflag
  split at h
  next hvector => cases h; exact State.readWord_refuse hvector
  cases h

theorem State.trapEntry_refused {n : Nat} {pc : Word} (h : s.trapEntry n pc = .refused r) : r.OfAccess := by
  simp only [State.trapEntry] at h
  split at h
  · cases h
  · cases h; exact .faultDuringTrapEntry
  next hframe => cases h; exact State.trapFrame_refuse hframe

theorem State.raise_refused {x : Exn} {npc : Word} (h : s.raise x npc = .refused r) : r.OfAccess := by
  obtain ⟨pc, k, hraise, -, -⟩ := s.raise_eq_trapEntry x npc
  exact State.trapEntry_refused (hraise.symm.trans h)

/-- An instruction whose access stopped is refused by that access or by the trap entry of its exception. -/
theorem State.conclude_error_refused {npc : Word} {e : Stop} (haccess : ∀ q, e = .refuse q → q.OfAccess)
    (h : s.conclude npc (.error e) = .refused r) : r.OfAccess := by
  cases e with
  | raise x => exact State.raise_refused h
  | refuse q => cases h; exact haccess _ rfl

/-! ### The refusals of PUSH and POP (45_stack_return.md R241, R242) -/

variable {rd : Reg}

theorem exec_push_refused (hsp : s.namesSp rd = false) (h : exec (.push rd) s = .refused r) : r.OfAccess := by
  cases hpush : s.push (s.readReg rd) with
  | ok t => cases (exec_push_ok hsp hpush).symm.trans h
  | error e =>
    exact State.conclude_error_refused (fun q hq => State.push_refuse (hq ▸ hpush))
      ((exec_push_stop hsp hpush).symm.trans h)

theorem exec_pop_refused (hsp : s.namesSp rd = false) (h : exec (.pop rd) s = .refused r) : r.OfAccess := by
  cases hpop : s.pop with
  | ok p => cases (exec_pop_ok (v := p.1) (t := p.2) hsp hpop).symm.trans h
  | error e =>
    exact State.conclude_error_refused (fun q hq => State.pop_refuse (hq ▸ hpop))
      ((exec_pop_stop hsp hpop).symm.trans h)

end

/-- Settles O33: SP always names the stack pointer, and USP does in user mode only; another register's PUSH or POP is
refused by its access or by a trap entry alone. -/
theorem pushPopOfStackPointer : Obligations.PushPopOfStackPointer := by
  refine fun s => ⟨exec_push_namesSp s.namesSp_sp, exec_pop_namesSp s.namesSp_sp, fun hp => ?user, fun hp => ?privileged⟩
  case user =>
    have husp : s.namesSp .usp = true := by rw [State.namesSp_usp, hp]; rfl
    exact ⟨exec_push_namesSp husp, exec_pop_namesSp husp⟩
  case privileged =>
    have husp : s.namesSp .usp = false := by rw [State.namesSp_usp, hp]; rfl
    exact ⟨fun h => (nomatch exec_push_refused husp h), fun h => (nomatch exec_pop_refused husp h)⟩

end Sys2Proof.Machine
end

section
/-! HALT (46_system.md): the halt in privileged mode, the exception in user mode, and the step of a halted machine. -/

namespace Sys2Proof.Machine

/-! ### HALT (46_system.md R262) -/

section
variable {s : State}

theorem exec_halt_privileged (hp : s.flag.p = true) :
    exec .halt s = .next { s with halted := true, pc := s.pc + 2 } := if_pos hp

/-- I is not asked, unlike for IN and OUT. -/
theorem exec_halt_user (hp : s.flag.p = false) : exec .halt s = s.raise .privViolation s.npcOne :=
  if_neg (Bool.eq_false_iff.1 hp)

/-- No request and no interrupt ends the halt: the step boundary is not reached. -/
theorem step_halted (h : s.halted = true) : step s = .next s := if_pos h

end

/-- Settles O37: in user mode HALT is an exception that records no cause, so its trap entry is all it changes. -/
theorem haltStopsTheMachine : Obligations.HaltStopsTheMachine := by
  refine ⟨fun s => exec_halt_privileged, fun s hp hframe => ?user, fun s => step_halted⟩
  case user =>
    rw [exec_halt_user hp]
    exact State.raise_trapTaken .privViolation s.npcOne hframe

end Sys2Proof.Machine
end

section
/-! Device interrupts (60_exceptions.md R310 to R315, R330): the requests made at a step boundary, which request is taken,
and the step as the instruction at pc or one interrupt. -/

namespace Sys2Proof.Machine

/-! ### The requests made at a step boundary (60_exceptions.md R312) -/

theorem pendingBit_getLsbD (m : Nat) {n : Nat} (hn : n < 10) : (pendingBit m).getLsbD n = decide (n = m) := by
  rw [pendingBit, BitVec.getLsbD_ofNat, Nat.testBit_two_pow, decide_eq_true hn, Bool.true_and, decide_eq_decide]
  exact eq_comm

/-- A source is enabled by the device registers, which a request leaves. -/
theorem State.arrive_irqEnabled (s : State) (m n : Nat) : (s.arrive m).irqEnabled n = s.irqEnabled n := by
  obtain ⟨p, k, h, -⟩ := s.arrive_eq m
  rw [h]
  rfl

/-- A source that is not enabled makes no request, and no other makes one for it. -/
theorem State.arrive_pending {s : State} {n : Nat} (m : Nat) (hn : n < 10) (h : s.irqEnabled n = false) :
    (s.arrive m).pending.getLsbD n = s.pending.getLsbD n := by
  by_cases hm : s.irqEnabled m = true
  · have hne : n ≠ m := by rintro rfl; rw [h] at hm; cases hm
    simp only [State.arrive, hm, if_true, BitVec.getLsbD_or]
    split <;> simp [pendingBit_getLsbD m hn, hne]
  · rw [State.arrive, if_neg hm]

theorem State.foldl_arrive_pending {n : Nat} (hn : n < 10) (l : List Nat) {s : State} (h : s.irqEnabled n = false) :
    (l.foldl State.arrive s).pending.getLsbD n = s.pending.getLsbD n := by
  induction l generalizing s with
  | nil => rfl
  | cons m l ih =>
    rw [List.foldl_cons, ih ((s.arrive_irqEnabled m n).trans h), State.arrive_pending m hn h]

theorem State.atBoundary_flag (s : State) : s.atBoundary.flag = s.flag := by
  obtain ⟨p, k, h⟩ := s.atBoundary_eq
  rw [h]

/-! ### Which request is taken (60_exceptions.md R315) -/

section
variable {s t : State} {n : Nat}

theorem State.mem_requesting : n ∈ s.requesting ↔ n < 10 ∧ s.pending.getLsbD n = true := by
  simp [State.requesting, sources]

theorem State.requesting_ne_nil (h : s.pending ≠ 0) : s.requesting ≠ [] := by
  intro hnil
  apply h
  refine BitVec.eq_of_getLsbD_eq fun n hn => ?_
  have hnone : ¬ (n < 10 ∧ s.pending.getLsbD n = true) := by rw [← State.mem_requesting, hnil]; exact List.not_mem_nil
  simpa [hn] using hnone

/-- Both by priority and by a free word, the source picked is one that requests. -/
theorem State.pickInterrupt_mem (choice : Word) (h : s.pending ≠ 0) : s.pickInterrupt choice ∈ s.requesting := by
  simp only [State.pickInterrupt]
  split
  case h_1 n hfind => simpa using List.find?_some hfind
  case h_2 =>
    have hpos : 0 < s.requesting.length := List.length_pos_of_ne_nil (State.requesting_ne_nil h)
    rw [List.getD_eq_getElem _ _ (Nat.mod_lt _ hpos)]
    exact List.getElem_mem _

/-- An interrupt taken is one that requests. -/
theorem State.chooseInterrupt_requesting (h : s.chooseInterrupt = (some n, t)) : n ∈ s.requesting := by
  obtain ⟨-, ⟨choice, rfl⟩, -⟩ := State.chooseInterrupt_some h
  refine State.pickInterrupt_mem choice fun hnone => ?_
  rw [State.chooseInterrupt_quiet (.inr hnone)] at h
  cases h

/-! ### The step of a running machine (00_scope.md R12) -/

theorem step_takes (hrun : s.halted = false) (h : s.atBoundary.chooseInterrupt = (some n, t)) :
    step s = t.takeInterrupt n := by
  simp only [step, hrun, h, Bool.false_eq_true, if_false]

theorem step_runs (hrun : s.halted = false) (h : s.atBoundary.chooseInterrupt = (none, t)) :
    step s = t.runInstruction := by
  simp only [step, hrun, h, Bool.false_eq_true, if_false]

end

/-- Settles O46: with E = 0 nothing is chosen, and each arrival leaves the request of a source that is not enabled. -/
theorem interruptsMaskedByE : Obligations.InterruptsMaskedByE := by
  intro s hrun
  refine ⟨fun he => ?masked, fun n hn hdisabled => State.foldl_arrive_pending hn _ hdisabled, s.atBoundary_eq⟩
  case masked =>
    have hmasked : s.atBoundary.flag.e = false := by rw [State.atBoundary_flag, he]
    exact step_runs hrun (State.chooseInterrupt_quiet (.inl hmasked))

/-- Settles O48: by whether `chooseInterrupt` takes one. -/
theorem interruptOrInstruction : Obligations.InterruptOrInstruction := by
  intro s hrun
  rcases hchoice : s.atBoundary.chooseInterrupt with ⟨_ | n, t⟩
  · obtain ⟨k, rfl⟩ := State.chooseInterrupt_none hchoice
    exact .inl ⟨k, step_runs hrun hchoice⟩
  · obtain ⟨he, -, rfl⟩ := State.chooseInterrupt_some hchoice
    obtain ⟨hn, hpending⟩ := State.mem_requesting.1 (State.chooseInterrupt_requesting hchoice)
    exact .inr ⟨s.atBoundary_flag ▸ he, n, _, hn, hpending, step_takes hrun hchoice⟩

/-! ### Taking an interrupt (60_exceptions.md R330) -/

/-- A trap taken from a state is one from every state with the same SSP, I, USP, general registers and memory. -/
theorem TrapTaken.of_before {n : Nat} {pc f0 : Word} {s s' t : State} (h : TrapTaken n pc f0 s' t)
    (hssp : s'.ssp = s.ssp) (hi : s'.flag.i = s.flag.i) (husp : s'.usp = s.usp) (hregs : s'.regs = s.regs)
    (hmemory : MemoryKept s s') : TrapTaken n pc f0 s t where
  ssp := hssp ▸ h.ssp
  saved_pc := hssp ▸ h.saved_pc
  saved_flag := hssp ▸ h.saved_flag
  handler := h.handler
  mode := hi ▸ h.mode
  usp := h.usp.trans husp
  regs := h.regs.trans hregs
  memory := fun a h4 h3 h2 h1 => by
    rw [← hssp] at h4 h3 h2 h1
    exact (h.memory a h4 h3 h2 h1).trans (hmemory a)

/-- Settles O47: the request is cleared before the trap entry, which keeps the others. -/
theorem interruptTaken : Obligations.InterruptTaken := by
  intro s n hn hframe
  obtain ⟨t, ht, htaken, hflag, hsystem, -⟩ :=
    State.trapEntry_trapTaken (s := { s with pending := s.pending &&& ~~~ pendingBit n }) n s.pc hframe
  refine ⟨t, ht, htaken.of_before rfl rfl rfl rfl fun _ => rfl, hflag, fun k hk => ?_⟩
  rw [hsystem.pending, BitVec.getLsbD_and, BitVec.getLsbD_not, pendingBit_getLsbD n hk]
  simp [hk]

end Sys2Proof.Machine
end

section
/-! The exceptions an instruction takes and the return from them (60_exceptions.md R303 to R307, R320, R325). -/

namespace Sys2Proof.Machine

/-! ### DIV and MOD by zero (60_exceptions.md R303) -/

theorem SystemAndTraceKept.trans {s t u : State} (hst : SystemAndTraceKept s t) (htu : SystemAndTraceKept t u) :
    SystemAndTraceKept s u := by
  obtain ⟨hs, hstTrace⟩ := hst
  obtain ⟨ht, htuTrace⟩ := htu
  exact ⟨⟨ht.rom.trans hs.rom, ht.iplAttached.trans hs.iplAttached, ht.halted.trans hs.halted,
    ht.pending.trans hs.pending, ht.relocation.trans hs.relocation, ht.paging.trans hs.paging, ht.base.trans hs.base,
    ht.limit.trans hs.limit, ht.mmuCause.trans hs.mmuCause, ht.faultPage.trans hs.faultPage, ht.tlb.trans hs.tlb,
    ht.io.trans hs.io, ht.params.trans hs.params⟩, htuTrace.trans hstTrace⟩

theorem SystemAndTraceKept.drawVCSZ (s : State) : SystemAndTraceKept s s.drawVCSZ := by
  refine ⟨?_, rfl⟩
  constructor <;> rfl

theorem State.divide_zero {s : State} {rd : Reg} {ea : Ea} (f : Word → Word → Word) (hrd : rd ≠ .flag)
    (h : s.value ea = .ok 0) : s.divide rd ea f = s.drawVCSZ.raise .zeroDivide (s.npcEa ea) := by
  simp only [State.divide, if_neg hrd, h, if_true]

/-- Settles O12: the exception is taken from the state with V, C, S and Z drawn, which is otherwise the one before. -/
theorem divideByZeroTraps : Obligations.DivideByZeroTraps := by
  intro op hop rd ea s hrd hzero hframe
  have hexec : exec (Instr.ofEa op rd ea) s = s.drawVCSZ.raise .zeroDivide (s.npcEa ea) := by
    obtain rfl | rfl := hop
    · rw [exec_div, State.divide_zero quotient hrd hzero]
    · rw [exec_mod, State.divide_zero remainder hrd hzero]
  obtain ⟨t, pc, ht, htaken, hflag, hthis, hnext, hsystem⟩ :=
    State.raise_trapTaken (s := s.drawVCSZ) .zeroDivide (s.npcEa ea) hframe
  exact ⟨t, pc, _, _, _, _, hexec.trans ht, htaken.of_before rfl rfl rfl rfl fun _ => rfl, hflag, hthis, hnext,
    (SystemAndTraceKept.drawVCSZ s).trans hsystem⟩

/-! ### IN and OUT without privilege (60_exceptions.md R304) -/

section
variable {s : State} {rd : Reg} {m : MemEa}

theorem State.ioAllowed_user (hp : s.flag.p = false) : s.ioAllowed = s.flag.i := by
  rw [State.ioAllowed, hp, Bool.false_or]

theorem State.input_notAllowed (h : s.ioAllowed = false) : s.input rd m = s.raise .privViolation (s.npcMem m) := by
  simp only [State.input, h, Bool.not_false, if_true]

theorem State.output_notAllowed (h : s.ioAllowed = false) : s.output rd m = s.raise .privViolation (s.npcMem m) := by
  simp only [State.output, h, Bool.not_false, if_true]

end

/-- Settles O28: IN and OUT are then the exception, which records no cause. -/
theorem ioWithoutPrivilegeTraps : Obligations.IoWithoutPrivilegeTraps := by
  intro rd m i s hrow hp hi hframe
  have hdenied : s.ioAllowed = false := (State.ioAllowed_user hp).trans hi
  have hexec : exec i s = s.raise .privViolation (s.npcMem m) := by
    obtain hin | hout := hrow
    · rw [exec_in s hin, State.input_notAllowed hdenied]
    · rw [exec_out s hout, State.output_notAllowed hdenied]
  rw [hexec]
  exact State.raise_trapTaken .privViolation (s.npcMem m) hframe

/-! ### SVC (60_exceptions.md R306) -/

/-- SVC records no cause and always saves the address after it. -/
theorem exec_svc (s : State) : exec .svc s = s.trapEntry 15 (s.pc + 2) := rfl

/-- Settles O36: SVC is trap entry 15 in either mode. -/
theorem svcTraps : Obligations.SvcTraps := by
  intro s hframe
  rw [exec_svc]
  exact State.trapEntry_trapTaken 15 (s.pc + 2) hframe

/-! ### Trap entry (60_exceptions.md R320) -/

/-- The first push of trap entry is onto the system stack, so an odd SSP stops it. -/
theorem State.trapEntry_odd {s : State} (n : Nat) (pc : Word) (hmmu : s.mmuOn = false) (hodd : s.ssp.toNat % 2 = 1)
    (hp : s.params.misaligned = .memViolation) : s.trapEntry n pc = .refused .faultDuringTrapEntry := by
  have hpush : (s.setFlag s.flag.enterTrap).push pc = .error (.raise .memViolation) :=
    State.push_odd (s := s.setFlag s.flag.enterTrap) hmmu hp hodd pc
  simp only [State.trapEntry, State.trapFrame, hpush]

/-- Settles O38: the frame where it can be pushed, and the refusal where SSP is odd. -/
theorem trapEntryFrame : Obligations.TrapEntryFrame :=
  fun s n pc => ⟨State.trapEntry_trapTaken n pc, fun hmmu hodd hp =>
    ⟨State.trapEntry_odd n pc hmmu hodd hp, (exec_svc s).trans (State.trapEntry_odd 15 _ hmmu hodd hp)⟩⟩

/-! ### RETI at the end of a handler (60_exceptions.md R325) -/

/-- Settles O39: RETI reads back the two words trap entry stored, and FLAG's word holds all of FLAG. -/
theorem trapThenRetiRestores : Obligations.TrapThenRetiRestores := by
  intro s t u n pc hframe hentry hp hssp hmmu hflagWord hpcWord
  have ⟨_, ⟨_, heven⟩, _⟩ := hframe
  obtain rfl : s.trapped n (s.ssp - 2) (s.ssp - 4) pc = t := by
    injection (State.trapEntry_writable n pc hframe).symm.trans hentry
  have htaken := State.trapped_trapTaken n pc hframe
  have hsp : u.readReg .sp = s.ssp - 4 := (State.readReg_sp_privileged hp).trans (hssp.trans htaken.ssp)
  have hslot : s.ssp - 4 + 2 = s.ssp - 2 := by bv_omega
  rw [hssp, htaken.ssp, htaken.saved_flag] at hflagWord
  rw [hssp, htaken.ssp, hslot, htaken.saved_pc] at hpcWord
  have hreadable : u.wordReadable (s.ssp - 4) := ⟨hmmu, heven⟩
  have hreturn := State.trapReturn_readable (hsp.symm ▸ hreadable) (hsp.symm ▸ State.wordReadable_add_two hreadable)
  have hread := State.writeReg_sp_stackRead (u.readReg .sp + 4) (u.wordAt (u.readReg .sp))
    (u.wordAt (u.readReg .sp + 2)) u.namesSp_flag
  have hhome : homeOf .sp u.flag.p = .ssp := by rw [hp]; rfl
  refine ⟨_, exec_reti_ok hreturn, ?pc, ?flag, ?ssp, fun g hg hflag => hread.others g (hhome ▸ hg) hflag hflag,
    hread.memory, hread.system⟩
  case pc => exact (congrArg (fun a => u.wordAt (a + 2)) hsp).trans (hslot.symm ▸ hpcWord)
  case flag => rw [hread.flag rfl, Flag.write_privileged _ _ hp, hsp, hflagWord, Flag.ofWord_toWord]
  case ssp =>
    have hpeek := hread.stackPointer
    rw [hhome] at hpeek
    exact hpeek.trans (hsp ▸ BitVec.sub_add_cancel s.ssp 4)

/-! ### Words that spell no instruction (60_exceptions.md R305, 30_encoding.md R103, R104) -/

/-- Whether a word spells an instruction at all does not depend on the word after it. -/
theorem decode_of_not_instr {w1 : Word} {d : Decoded} (h : decode w1 0 = d) (hd : ∀ i, d ≠ .instr i) (w2 : Word) :
    decode w1 w2 = d := by
  rcases decode_secondWord w1 w2 0 with heq | ⟨-, -, j, hj⟩
  · exact heq.trans h
  · exact absurd (h.symm.trans hj) (hd j)

/-- Settles O40: the fetch answers that there is no instruction, and the step follows. -/
theorem wordsThatSpellNoInstruction : Obligations.WordsThatSpellNoInstruction := by
  intro s hquiet hpc
  rw [step_quiet hquiet]
  refine ⟨fun hundefined hframe => ?undefined, fun hreserved => ?reserved⟩
  case undefined =>
    have hfetch : s.fetch = .ok .undefined := by
      rw [State.fetch_readable hpc, decode_of_not_instr hundefined (fun _ => Decoded.noConfusion)]
    have hrun : s.runInstruction = s.raise .undefinedInstruction s.npcOne := by simp only [State.runInstruction, hfetch]
    rw [hrun]
    exact State.raise_trapTaken .undefinedInstruction s.npcOne hframe
  case reserved =>
    have hfetch : s.fetch = .ok .reserved := by
      rw [State.fetch_readable hpc, decode_of_not_instr hreserved (fun _ => Decoded.noConfusion)]
    simp only [State.runInstruction, hfetch, State.firstWord]

end Sys2Proof.Machine
end

section
/-! User mode (60_exceptions.md R340, 10_state.md R24): what a step of a machine with P = 0 keeps, unless it is a trap
entry. -/

namespace Sys2Proof.Machine

/-! ### What a user-mode operation keeps, and what a trap entry leaves -/

/-- E, P, I, SSP and the halt are kept, and without the I flag no I/O access is made. -/
def UserKept (s t : State) : Prop :=
  ModeKept s t ∧ t.ssp = s.ssp ∧ t.halted = s.halted ∧
    (s.flag.i = false → t.trace = s.trace ∧ t.io = s.io ∧ t.tlb = s.tlb ∧ t.base = s.base ∧ t.limit = s.limit ∧
      t.iplAttached = s.iplAttached)

/-- A trap entry by an exception or a device interrupt, with its frame wherever MISALIGNED_WORD puts it. -/
def TrapEntered (s t : State) : Prop :=
  t.flag.p = true ∧ t.flag.e = false ∧ t.flag.i = s.flag.i ∧ t.ssp = s.ssp - 4 ∧ t.usp = s.usp ∧ t.regs = s.regs ∧
    t.trace = s.trace ∧ t.io = s.io ∧ t.iplAttached = s.iplAttached ∧
    ∃ n, n < 16 ∧ t.pc = t.wordAt (vectorAddress n)

/-- The two outcomes of a user-mode step. -/
def UserStep (s t : State) : Prop := UserKept s t ∨ TrapEntered s t

/-! ### Operations that are not a trap entry -/

theorem UserKept.refl (s : State) : UserKept s s := ⟨⟨rfl, rfl, rfl⟩, rfl, rfl, fun _ => ⟨rfl, rfl, rfl, rfl, rfl, rfl⟩⟩

theorem UserKept.goto {s t : State} (h : UserKept s t) (pc : Word) : UserKept s (t.goto pc) := h

theorem UserKept.user {s t : State} (h : UserKept s t) (hp : s.flag.p = false) : t.flag.p = false := by
  obtain ⟨⟨-, hkept, -⟩, -⟩ := h
  exact hkept.trans hp

/-- In user mode no register number names SSP (10_state.md R24). -/
theorem homeOf_user_ne_ssp (r : Reg) : homeOf r false ≠ .ssp := by cases r <;> simp [homeOf]

theorem State.writeReg_ssp_user {s : State} (r : Reg) (v : Word) (hp : s.flag.p = false) :
    (s.writeReg r v).ssp = s.ssp :=
  RegistersKeptBut.writeReg s r v .ssp (hp ▸ (homeOf_user_ne_ssp r).symm) (by decide)

theorem State.writeReg_modeKept_user {s : State} (r : Reg) (v : Word) (hp : s.flag.p = false) :
    ModeKept s (s.writeReg r v) := by
  by_cases hr : r = .flag
  · subst hr; exact Flag.write_user s.flag v hp
  · rw [ModeKept, State.writeReg_flag_of_ne s r v hr]; exact ⟨rfl, rfl, rfl⟩

theorem UserKept.writeReg {s t : State} (h : UserKept s t) (hp : s.flag.p = false) (r : Reg) (v : Word) :
    UserKept s (t.writeReg r v) := by
  have ht := h.user hp
  obtain ⟨⟨he, hp', hi⟩, hssp, hhalted, hio⟩ := h
  obtain ⟨he', hp'', hi'⟩ := State.writeReg_modeKept_user r v ht
  refine ⟨⟨he'.trans he, hp''.trans hp', hi'.trans hi⟩, (State.writeReg_ssp_user r v ht).trans hssp, ?_, fun h => ?_⟩
  · rw [State.writeReg_halted, hhalted]
  · simpa using hio h

/-- The writes of an eight-mode instruction with Rd other than FLAG. -/
theorem ActFrame.userKept {rd : Reg} {s t : State} (h : ActFrame rd s t) (hp : s.flag.p = false) : UserKept s t := by
  obtain ⟨hsystem, htrace⟩ := h.system
  have hssp : t.ssp = s.ssp := h.registers .ssp (hp ▸ (homeOf_user_ne_ssp rd).symm) (by decide)
  exact ⟨h.mode, hssp, hsystem.halted, fun _ =>
    ⟨htrace, hsystem.io, hsystem.tlb, hsystem.base, hsystem.limit, hsystem.iplAttached⟩⟩

theorem UserKept.storeValue {s t : State} {m : MemEa} {v : Word} (h : s.storeValue m v = .ok t) : UserKept s t := by
  obtain ⟨-, ⟨-, rfl⟩ | ⟨b, -, -, rfl⟩⟩ := State.storeValue_ok h <;> exact .refl s

theorem UserKept.push {s t : State} {v : Word} (hp : s.flag.p = false) (h : s.push v = .ok t) : UserKept s t := by
  obtain ⟨-, b, -, -, -, rfl⟩ := State.push_ok h
  have hstored : UserKept s (s.storeWord b v) := .refl s
  exact hstored.writeReg hp _ _

theorem UserKept.pop {s t : State} {v : Word} (hp : s.flag.p = false) (h : s.pop = .ok (v, t)) : UserKept s t := by
  obtain ⟨-, -, rfl⟩ := State.pop_ok h
  exact (UserKept.refl s).writeReg hp _ _

theorem UserKept.trapReturn {s t : State} (hp : s.flag.p = false) (h : s.trapReturn = .ok t) : UserKept s t := by
  obtain ⟨-, f, pc, rfl⟩ := State.trapReturn_ok h
  exact (((UserKept.refl s).writeReg hp _ _).writeReg hp _ _).goto pc

/-! ### IN and OUT, which user mode may run with I = 1 only (44_in_out.md R230) -/

/-- An I/O access that the I flag allows need keep nothing of the devices. -/
theorem UserKept.of_ioAllowed {s t : State} (hi : s.flag.i = true) (hflag : t.flag = s.flag) (hssp : t.ssp = s.ssp)
    (hhalted : t.halted = s.halted) : UserKept s t := by
  refine ⟨?mode, hssp, hhalted, fun hclear => Bool.noConfusion (hi.symm.trans hclear)⟩
  case mode => rw [ModeKept, hflag]; exact ⟨rfl, rfl, rfl⟩

theorem State.portWrite_core {s t : State} {a : Nat} {v : Byte} (h : s.portWrite a v = .ok t) :
    t.flag = s.flag ∧ t.ssp = s.ssp ∧ t.halted = s.halted := by
  rcases State.portWrite_ok h with rfl | ⟨-, rfl⟩ | ⟨n, x, rfl⟩ | rfl | rfl | rfl | ⟨x, rfl⟩ | ⟨x, rfl⟩
  all_goals exact ⟨rfl, rfl, rfl⟩

theorem State.ioWrite_core {s t : State} {b : Bool} {a v : Word} (h : s.ioWrite b a v = .ok t) :
    t.flag = s.flag ∧ t.ssp = s.ssp ∧ t.halted = s.halted := by
  rcases State.ioWrite_ok h with ⟨u, e, hu, rfl⟩ | ⟨u, w, e, hu, hw, rfl⟩
  · obtain ⟨hflag, hssp, hhalted⟩ := State.portWrite_core hu
    exact ⟨hflag, hssp, hhalted⟩
  · obtain ⟨hflag, hssp, hhalted⟩ := State.portWrite_core hu
    obtain ⟨hflag', hssp', hhalted'⟩ := State.portWrite_core hw
    exact ⟨hflag'.trans hflag, hssp'.trans hssp, hhalted'.trans hhalted⟩

theorem UserKept.ioWrite {s t : State} {b : Bool} {a v : Word} (hi : s.flag.i = true) (h : s.ioWrite b a v = .ok t) :
    UserKept s t := by
  obtain ⟨hflag, hssp, hhalted⟩ := State.ioWrite_core h
  exact .of_ioAllowed hi hflag hssp hhalted

theorem UserKept.ioReadDone {s : State} (b : Bool) (a v : Word) (hi : s.flag.i = true) :
    UserKept s (s.ioReadDone b a v) := by
  obtain ⟨c, p, h⟩ := s.ioReadDone_eq b a v
  rw [h]
  exact .of_ioAllowed hi rfl rfl rfl

/-! ### Trap entries (60_exceptions.md R300, R320) -/

theorem Exn.vector_lt (x : Exn) : x.vector < 16 := by cases x <;> decide

theorem TrapEntered.of_trapFrame {s t : State} {n : Nat} {pc : Word} (hn : n < 16) (h : s.trapFrame n pc = .ok t) :
    TrapEntered s t := by
  obtain ⟨-, a, b, -, -, -, -, -, rfl⟩ := State.trapFrame_ok h
  obtain ⟨hsystem, htrace⟩ := s.trapped_system n a b pc
  exact ⟨rfl, rfl, rfl, s.trapped_ssp .., s.trapped_usp .., rfl, htrace, hsystem.io, hsystem.iplAttached, n, hn, rfl⟩

/-- An exception taken: what it records before its trap entry is nothing that `TrapEntered` speaks of. -/
theorem UserStep.of_raise {s t : State} {x : Exn} {npc : Word} (h : s.raise x npc = .next t) : UserStep s t := by
  obtain ⟨c, p, k, pc, hframe⟩ := State.raise_next h
  have hentered := TrapEntered.of_trapFrame x.vector_lt hframe
  exact .inr hentered

/-- V, C, S and Z are nothing that a user-mode step is held to, nor is the count of draws. -/
theorem UserStep.of_drawVCSZ {s t : State} (h : UserStep s.drawVCSZ t) : UserStep s t := h

/-- Neither are the requests, so a step may start from the step boundary. -/
theorem UserStep.of_boundary {s t : State} {p : BitVec 10} {k : Nat}
    (h : UserStep { s with pending := p, draws := k } t) : UserStep s t := h

/-! ### The instructions -/

section
variable {s t : State} (hp : s.flag.p = false)
include hp

theorem UserStep.of_load {rd : Reg} {ea : Ea} (h : s.load rd ea = .next t) : UserStep s t := by
  obtain ⟨v, -, rfl⟩ | ⟨x, hx⟩ := State.load_next h
  · exact .inl (((UserKept.refl s).writeReg hp rd v).goto _)
  · exact .of_raise hx

theorem UserStep.of_divide {rd : Reg} {ea : Ea} {f : Word → Word → Word} (h : s.divide rd ea f = .next t) :
    UserStep s t := by
  obtain ⟨hrd, ⟨b, -, -, rfl⟩ | hzero | ⟨x, hx⟩⟩ := State.divide_next h
  · exact .inl (((ActFrame.resultDrawn rd s _ hrd).userKept hp).goto _)
  · exact (UserStep.of_raise hzero).of_drawVCSZ
  · exact .of_raise hx

theorem UserStep.of_ea {op : EaOp} {rd : Reg} {ea : Ea} (h : exec (Instr.ofEa op rd ea) s = .next t) :
    UserStep s t := by
  by_cases hld : op = .ld
  · rw [hld, exec_ld] at h; exact .of_load hp h
  by_cases hdiv : op = .div
  · rw [hdiv, exec_div] at h; exact .of_divide hp h
  by_cases hmod : op = .mod
  · rw [hmod, exec_mod] at h; exact .of_divide hp h
  rw [exec_operate op rd ea s ⟨hld, hdiv, hmod⟩] at h
  obtain ⟨hrd, ⟨b, -, rfl⟩ | ⟨x, hx⟩⟩ := State.operate_next h
  · exact .inl (((ActFrame.of_act op rd s _ b hrd).userKept hp).goto _)
  · exact .of_raise hx

theorem UserStep.of_call {m : MemEa} (h : s.call m = .next t) : UserStep s t := by
  obtain ⟨u, hu, rfl⟩ | ⟨x, hx⟩ := State.call_next h
  · exact .inl ((UserKept.push hp hu).goto _)
  · exact .of_raise hx

/-- Every instruction, shape by shape: its own writes or the exception it takes. -/
theorem exec_user (i : Instr) (h : exec i s = .next t) : UserStep s t := by
  revert h
  induction i using Instr.byShape with
  | hno => rintro ⟨⟩; exact .inl ((UserKept.refl s).goto _)
  | hea op rd ea => exact UserStep.of_ea hp
  | hst rd m =>
    intro h
    rw [exec_st] at h
    obtain ⟨u, hu, rfl⟩ | ⟨x, hx⟩ := State.store_next h
    · exact .inl ((UserKept.storeValue hu).goto _)
    · exact .of_raise hx
  | hjd k dsp => rw [exec_jumpDrct]; rintro ⟨⟩; exact .inl ((UserKept.refl s).goto _)
  | hji k rx dsp => rw [exec_jumpIndex]; rintro ⟨⟩; exact .inl ((UserKept.refl s).goto _)
  | hcall m i hi => intro h; rw [exec_call s hi] at h; exact .of_call hp h
  | hin rd m i hi =>
    intro h
    rw [exec_in s hi] at h
    obtain ⟨hallowed, -, v, -, rfl⟩ | ⟨x, hx⟩ := State.input_next h
    · have hflagI : s.flag.i = true := (State.ioAllowed_user hp).symm.trans hallowed
      exact .inl (((UserKept.ioReadDone _ _ v hflagI).writeReg hp rd v).goto _)
    · exact .of_raise hx
  | hout rd m i hi =>
    intro h
    rw [exec_out s hi] at h
    obtain ⟨hallowed, u, hu, rfl⟩ | ⟨x, hx⟩ := State.output_next h
    · have hflagI : s.flag.i = true := (State.ioAllowed_user hp).symm.trans hallowed
      exact .inl ((UserKept.ioWrite hflagI hu).goto _)
    · exact .of_raise hx
  | hpush rd =>
    intro h
    obtain ⟨-, ⟨u, hu, rfl⟩ | ⟨x, hx⟩⟩ := execPush_next h
    · exact .inl ((UserKept.push hp hu).goto _)
    · exact .of_raise hx
  | hpop rd =>
    intro h
    obtain ⟨-, ⟨v, u, hu, rfl⟩ | ⟨x, hx⟩⟩ := execPop_next h
    · exact .inl (((UserKept.pop hp hu).writeReg hp rd v).goto _)
    · exact .of_raise hx
  | hret =>
    intro h
    obtain ⟨v, u, hu, rfl⟩ | ⟨x, hx⟩ := execRet_next h
    · exact .inl ((UserKept.pop hp hu).goto v)
    · exact .of_raise hx
  | hreti =>
    intro h
    obtain hu | ⟨x, hx⟩ := execReti_next h
    · exact .inl (UserKept.trapReturn hp hu)
    · exact .of_raise hx
  | hsvc => exact UserStep.of_raise (x := .svc)
  | hhalt => rw [exec_halt_user hp]; exact UserStep.of_raise

/-! ### The step (00_scope.md R12) -/

theorem UserStep.of_runInstruction (h : s.runInstruction = .next t) : UserStep s t := by
  obtain ⟨i, -, hi⟩ | ⟨x, hx⟩ | ⟨k, m, ⟨⟩⟩ | ⟨m, hcall⟩ := State.runInstruction_next h
  · exact exec_user hp i hi
  · exact .of_raise hx
  · exact .inl ((UserKept.refl s).goto _)
  · exact .of_call hp hcall

end

theorem UserStep.of_takeInterrupt {s t : State} {n : Nat} (hn : n < 10) (h : s.takeInterrupt n = .next t) :
    UserStep s t := by
  have hentered := TrapEntered.of_trapFrame (by omega : n < 16) (State.trapEntry_next h)
  exact .inr hentered

/-- Settles O60: a step is the halt, the instruction at pc or one interrupt (O48), from a state that differs by the requests
and the draws only. -/
theorem userModeCannotRaisePrivilege : Obligations.UserModeCannotRaisePrivilege := by
  intro s t hp h
  change UserStep s t
  cases hhalted : s.halted with
  | true =>
    obtain rfl : s = t := by injection (step_halted hhalted).symm.trans h
    exact .inl (.refl s)
  | false =>
    obtain ⟨p, _, hboundary⟩ := s.atBoundary_eq
    have hstep := interruptOrInstruction s hhalted
    rw [hboundary, h] at hstep
    obtain ⟨k, hrun⟩ | ⟨-, n, k, hn, -, htake⟩ := hstep
    · exact (UserStep.of_runInstruction (s := { s with pending := p, draws := k }) hp hrun.symm).of_boundary
    · exact (UserStep.of_takeInterrupt hn htake.symm).of_boundary

end Sys2Proof.Machine
end
